-- ==== Sys2Proof/Word.lean ====
section
/-! DEFINITION. The word types of the block (00_scope.md R10): a packet word is 32 bits, a legacy byte is 8 bits. -/

namespace Sys2Proof

/-- A legacy byte or a byte of a packet (R10). -/
abbrev Byte := BitVec 8

/-- A packet word (R10). -/
abbrev Word := BitVec 32

/-- An ordered byte list, the first byte first (R16). -/
abbrev Bytes := List Byte

end Sys2Proof
end

