-- ==== Sys2Proof/Config.lean ====
section
/-! DEFINITION. What an implementation fixes (00_scope.md R11) and the free values of the spec. -/

namespace Sys2Proof

/-- The parameters the source leaves open (R11). They are fixed before the first command and do not
change during a run (R343); the model carries them in the state as a record that no step writes
(DESIGN CHOICE, log 10). -/
structure Params where
  /-- `JR_TICK`: time units per timestamp tick. -/
  jrTick : Nat
  /-- `JR_MARGIN_NUM`: numerator of the security margin factor. -/
  jrMarginNum : Nat
  /-- `JR_MARGIN_DEN`: denominator of the security margin factor. -/
  jrMarginDen : Nat
  /-- `JR_INIT_SEC`: the initial ("floor") security offset. -/
  jrInitSec : Nat
  /-- `JR_TIME_W`: width of JR time values in a finite realisation; `none` is unbounded. -/
  jrTimeW : Option Nat
  /-- `FC8_TRUNC_FLAG`: whether FC8's payload event carries the truncation mark. -/
  fc8TruncFlag : Bool
  /-- `BP_BUF_CAP`: capacity of BP's payload-mode buffer; `none` is unbounded. -/
  bpBufCap : Option Nat
  /-- `FC7_BUF_CAP`: capacity of FC7's accumulator; `none` is unbounded. -/
  fc7BufCap : Option Nat
deriving DecidableEq, Repr

/-- `JR_TICK` has no default (R11, 92_eei_decisions.md D23): it is a positive natural about which
nothing can be proved but that. This is its predecessor (log 10). -/
opaque Config.jrTickPred : Nat

/-- The `n`-th free draw of `any`: the time `JR.SCHED` returns before the first `JR.SYNC`
(44_jitter_clock_follower.md R293, 93_implementation_defined.md I9). A free value (log 11). -/
opaque Config.freeTime : Nat → Nat

/-- `JR_TICK`, positive. -/
def Config.jrTick : Nat := Config.jrTickPred + 1

/-- The parameters at the defaults of R11; `JR_TICK`, which has none, is the open constant. -/
def Params.default : Params where
  jrTick := Config.jrTick
  jrMarginNum := 6
  jrMarginDen := 5
  jrInitSec := 0
  jrTimeW := none
  fc8TruncFlag := false
  bpBufCap := none
  fc7BufCap := none

end Sys2Proof
end

