-- ==== Sys2Proof/Syntax.lean ====
section
/-! DEFINITION. The packet value, the raw transactions the block reads, and `Instr`: one constructor per row
of spec/opcode_table.json. -/

namespace Sys2Proof

/-- A packet value: an ordered vector of four 32-bit words (10_state.md R30). The word count is derived
from the type tag and never stored. -/
structure Packet where
  w0 : Word
  w1 : Word
  w2 : Word
  w3 : Word
deriving DecidableEq, Repr

/-- The unit kinds, as `cmd[7:4]` selects them (30_encoding.md R93, R94). SX, FR7 and FR8 share the high
nibble 0x5, hence one kind, named `sx` here (DEDUCED, log 4). -/
inductive UnitKind where
  | pk | sc | bp | fc7 | fc8 | sx | jr
deriving DecidableEq, Repr

/-- The instance a command goes to. The host chooses it and it is not part of the encoding
(R93, D46); the model numbers the instances of each unit (DESIGN CHOICE, log 3). -/
structure Target where
  unit : UnitKind
  idx : Nat
deriving DecidableEq, Repr

/-- One operand field of a command (R96): an unsigned number, a 4-word packet, a byte list, or
"`none` or natural". -/
inductive Field where
  | num (v : Nat)
  | packet (p : Packet)
  | bytes (l : Bytes)
  | limit (m : Option Nat)
deriving DecidableEq, Repr

/-- The packet formats of R90 that have their own rows in the opcode table. -/
inductive PacketFormat where
  | w0 | t3 | t5
deriving DecidableEq, Repr

/-- A transaction as it arrives, before decoding. The three opcode spaces of 30_encoding.md: a command
code with its operand fields (R93), a packet value presented in one of its formats (R90, 10_state.md R30), and
a legacy byte (R103). -/
inductive Raw where
  | cmd (code : Byte) (fields : List Field)
  | packet (fmt : PacketFormat) (p : Packet)
  | byte (b : Byte)
deriving DecidableEq, Repr

/-- A transaction with the instance the host sends it to. -/
structure Frame where
  target : Target
  raw : Raw
deriving DecidableEq, Repr

/-- The instructions. The first forty are the commands of R94 with the operands of R96. The rows that
are not commands (log 8) are a packet presented to the type decoder (`tag…`: group, status, the low
16 bits of word 0, then the further words), a fragment presented to its collector (`t3…`, `t5…`: group,
count, stream id, and the data bytes in order, the first in the top byte), and a legacy byte
presented to the parser (`byte…`: the bits its class leaves open). -/
inductive Instr where
  | pkMake (n : BitVec 3) (a0 a1 a2 a3 : Word)
  | pkSize (p : Packet)
  | pkType (p : Packet)
  | pkGroup (p : Packet)
  | pkStatus (p : Packet)
  | pkGetb (p : Packet) (i : BitVec 4)
  | pkSetb (p : Packet) (i : BitVec 4) (v : Byte)
  | pkGet7 (p : Packet) (i : BitVec 4)
  | pkSet7 (p : Packet) (i : BitVec 4) (v : Byte)
  | pkGet14 (p : Packet) (i : BitVec 4)
  | pkSet14 (p : Packet) (i : BitVec 4) (v : BitVec 14)
  | pkGet28 (p : Packet) (i : BitVec 4)
  | pkSet28 (p : Packet) (i : BitVec 4) (v : BitVec 28)
  | pkGetn (p : Packet) (k : BitVec 5)
  | pkSetn (p : Packet) (k : BitVec 5) (v : BitVec 4)
  | pkIsfam (p : Packet) (f : BitVec 4)
  | scUp7To16 (v : BitVec 7)
  | scUp7To32 (v : BitVec 7)
  | scUp14To16 (v : BitVec 14)
  | scUp14To32 (v : BitVec 14)
  | scDn16To7 (v : BitVec 16)
  | scDn32To7 (v : BitVec 32)
  | scDn16To14 (v : BitVec 16)
  | scDn32To14 (v : BitVec 32)
  | bpFeed (b : Byte)
  | bpReset
  | bpCfg (g : BitVec 4) (e m : BitVec 1)
  | fc7Feed (p : Packet)
  | fc7Reset
  | fc8Feed (p : Packet)
  | fc8Reset
  | fc8Cfg (max : Option Nat)
  | sxIs7 (mid : BitVec 24) (l : Bytes)
  | sxIs8 (mid : BitVec 24) (l : Bytes)
  | sxTotal (mid : BitVec 24) (l : Bytes)
  | fr7Frag (mid : BitVec 24) (l : Bytes) (g : BitVec 4)
  | fr8Frag (mid : BitVec 24) (l : Bytes) (g : BitVec 4) (sid : Byte)
  | jrSync (t : Nat) (ts : BitVec 16)
  | jrSched (t : Nat) (ts : BitVec 16)
  | jrReset
  | tagUtility (g : BitVec 4) (status : Byte) (data : BitVec 16)
  | tagSystem (g : BitVec 4) (status : Byte) (data : BitVec 16)
  | tagCv1 (g : BitVec 4) (status : Byte) (data : BitVec 16)
  | tagSysex7 (g : BitVec 4) (status : Byte) (data : BitVec 16) (w1 : Word)
  | tagCv2 (g : BitVec 4) (status : Byte) (data : BitVec 16) (w1 : Word)
  | tagSysex8 (g : BitVec 4) (status : Byte) (data : BitVec 16) (w1 w2 w3 : Word)
  | tagFlex (g : BitVec 4) (status : Byte) (data : BitVec 16) (w1 w2 w3 : Word)
  | tagStream (g : BitVec 4) (status : Byte) (data : BitVec 16) (w1 w2 w3 : Word)
  | tagReserved6 (g : BitVec 4) (status : Byte) (data : BitVec 16)
  | tagReserved7 (g : BitVec 4) (status : Byte) (data : BitVec 16)
  | tagReserved8 (g : BitVec 4) (status : Byte) (data : BitVec 16)
  | tagReserved9 (g : BitVec 4) (status : Byte) (data : BitVec 16)
  | tagReservedA (g : BitVec 4) (status : Byte) (data : BitVec 16)
  | tagReservedB (g : BitVec 4) (status : Byte) (data : BitVec 16)
  | tagReservedC (g : BitVec 4) (status : Byte) (data : BitVec 16)
  | tagReservedE (g : BitVec 4) (status : Byte) (data : BitVec 16)
  | t3Complete (g n : BitVec 4) (data : BitVec 48)
  | t5Complete (g n : BitVec 4) (sid : Byte) (data : BitVec 104)
  | t3Start (g n : BitVec 4) (data : BitVec 48)
  | t5Start (g n : BitVec 4) (sid : Byte) (data : BitVec 104)
  | t3Cont (g n : BitVec 4) (data : BitVec 48)
  | t5Cont (g n : BitVec 4) (sid : Byte) (data : BitVec 104)
  | t3End (g n : BitVec 4) (data : BitVec 48)
  | t5End (g n : BitVec 4) (sid : Byte) (data : BitVec 104)
  | byteData (v : BitVec 7)
  | byteCv80 (v : BitVec 6)
  | byteCvC0 (v : BitVec 5)
  | byteCvE0 (v : BitVec 4)
  | byteSxStart
  | byteScF1
  | byteScF2
  | byteScF3
  | byteUndefF4
  | byteUndefF5
  | byteTune
  | byteSxEnd
  | byteRtF8
  | byteRtResF9
  | byteRtFA
  | byteRtFB
  | byteRtFC
  | byteRtResFD
  | byteRtFE
  | byteRtFF
deriving DecidableEq, Repr

end Sys2Proof
end

