-- ==== Sys2Proof/Machine/Operands.lean ====
section
/-! DEFINITION. Operand forms: positions inside a packet, the packet formats, the manufacturer id, and the
classes of the legacy byte. Everything here is a pure function of operands. -/

namespace Sys2Proof.Machine

/-! ## Positions inside a packet (20_memory.md R70 to R72) -/

/-- `P.w[i]` (R70). Word indices run over 0..3; no operand reaches past them. -/
def wordOf (p : Packet) (i : Nat) : Word :=
  match i with
  | 0 => p.w0
  | 1 => p.w1
  | 2 => p.w2
  | 3 => p.w3
  | _ => 0

/-- `P` with word `i` replaced. -/
def setWord (p : Packet) (i : Nat) (w : Word) : Packet :=
  match i with
  | 0 => { p with w0 := w }
  | 1 => { p with w1 := w }
  | 2 => { p with w2 := w }
  | 3 => { p with w3 := w }
  | _ => p

/-- The `width`-bit field of a word that starts at bit `lo`. -/
def fieldOf (width : Nat) (w : Word) (lo : Nat) : BitVec width :=
  w.extractLsb' lo width

/-- A word with the `width`-bit field at bit `lo` replaced. -/
def setField (width : Nat) (w : Word) (lo : Nat) (v : BitVec width) : Word :=
  (w &&& ~~~((BitVec.allOnes width).setWidth 32 <<< lo)) ||| (v.setWidth 32 <<< lo)

/-- `byte(P, i)`: bytes go most significant first within a word (00_scope.md R14, R71). -/
def getByte (p : Packet) (i : Nat) : Byte :=
  fieldOf 8 (wordOf p (i / 4)) (24 - 8 * (i % 4))

/-- `setbyte(P, i, v)` (R14). -/
def setByte (p : Packet) (i : Nat) (v : Byte) : Packet :=
  setWord p (i / 4) (setField 8 (wordOf p (i / 4)) (24 - 8 * (i % 4)) v)

/-- Nibble `k` of a packet (R70). -/
def getNibble (p : Packet) (k : Nat) : BitVec 4 :=
  fieldOf 4 (wordOf p (k / 8)) (28 - 4 * (k % 8))

/-- A packet with nibble `k` replaced. -/
def setNibble (p : Packet) (k : Nat) (v : BitVec 4) : Packet :=
  setWord p (k / 8) (setField 4 (wordOf p (k / 8)) (28 - 4 * (k % 8)) v)

/-- The 7-bit field at byte `i`: bit 7 is cleared on read (30_encoding.md R104). -/
def get7 (p : Packet) (i : Nat) : BitVec 7 := (getByte p i).setWidth 7

/-- The 7-bit field at byte `i` written: bit 7 is written 0 (R104). -/
def set7 (p : Packet) (i : Nat) (v : BitVec 7) : Packet := setByte p i (v.setWidth 8)

/-- A 14-bit field, low-order byte first (R72). -/
def get14 (p : Packet) (i : Nat) : BitVec 14 := get7 p (i + 1) ++ get7 p i

/-- A 14-bit field written, low-order byte first (40_packet.md R141). -/
def set14 (p : Packet) (i : Nat) (v : BitVec 14) : Packet :=
  set7 (set7 p i (v.extractLsb' 0 7)) (i + 1) (v.extractLsb' 7 7)

/-- A 28-bit field, low-order byte first (R72). -/
def get28 (p : Packet) (i : Nat) : BitVec 28 :=
  get7 p (i + 3) ++ get7 p (i + 2) ++ get7 p (i + 1) ++ get7 p i

/-- A 28-bit field written, low-order byte first (40_packet.md R144). -/
def set28 (p : Packet) (i : Nat) (v : BitVec 28) : Packet :=
  set7 (set7 (set7 (set7 p i (v.extractLsb' 0 7)) (i + 1) (v.extractLsb' 7 7)) (i + 2) (v.extractLsb' 14 7))
    (i + 3) (v.extractLsb' 21 7)

/-- `n` bytes of a packet from byte `start` on, in order. -/
def dataBytes (p : Packet) (start n : Nat) : Bytes :=
  (List.range n).map fun j => getByte p (start + j)

/-! ## Word 0 (30_encoding.md R91, R92) -/

/-- The type tag, bits [31:28] of word 0. -/
def tagOf (p : Packet) : BitVec 4 := fieldOf 4 p.w0 28

/-- The group, bits [27:24] of word 0. -/
def groupOf (p : Packet) : BitVec 4 := fieldOf 4 p.w0 24

/-- The status byte, bits [23:16] of word 0. -/
def statusOf (p : Packet) : Byte := fieldOf 8 p.w0 16

/-- The fragment kind, bits [23:20] of word 0 (R101). -/
def kindOf (p : Packet) : BitVec 4 := fieldOf 4 p.w0 20

/-- The stored fragment count, bits [19:16] of word 0 (R99, R100). -/
def countOf (p : Packet) : BitVec 4 := fieldOf 4 p.w0 16

/-- `WORDS(tag)`: the word count is a function of the tag alone (R92). -/
def wordsOf (tag : BitVec 4) : Nat :=
  match tag.toNat with
  | 0x0 | 0x1 | 0x2 => 1
  | 0x3 | 0x4 => 2
  | 0x5 | 0xD | 0xF => 4
  | _ => 1

/-- Word 0 from its fields (R91). -/
def word0 (tag g : BitVec 4) (status : Byte) (data : BitVec 16) : Word := tag ++ g ++ status ++ data

/-- `PK.MAKE`'s packet: the first `n` words given, the others 0 (40_packet.md R137). -/
def packetOf (n : Nat) (a0 a1 a2 a3 : Word) : Packet where
  w0 := if 0 < n then a0 else 0
  w1 := if 1 < n then a1 else 0
  w2 := if 2 < n then a2 else 0
  w3 := if 3 < n then a3 else 0

/-! ## Fragments (30_encoding.md R99 to R101) -/

/-- The fragment kinds (R101). -/
inductive FragKind where
  | complete | start | cont | end_
deriving DecidableEq, Repr

/-- The numeric code of a fragment kind, in w0[23:20] (R101). -/
def FragKind.code : FragKind → BitVec 4
  | .complete => 0
  | .start => 1
  | .cont => 2
  | .end_ => 3

/-- The fragment kind of a code; codes 4 to 15 are not fragments (R101). -/
def fragKindOf (code : BitVec 4) : Option FragKind :=
  match code.toNat with
  | 0 => some .complete
  | 1 => some .start
  | 2 => some .cont
  | 3 => some .end_
  | _ => none

/-- Byte `j` of a list, 0 past its end: unused data positions hold 0 when the block writes them
(R99, R100). -/
def byteAt (l : Bytes) (j : Nat) : Byte := l.getD j 0

/-- A packet of format T3 from its fields: tag 3, group, kind, count, and six data bytes, the first
in the top byte of `data` (R99). -/
def t3Packet (g : BitVec 4) (kind : FragKind) (n : BitVec 4) (data : BitVec 48) : Packet where
  w0 := word0 0x3 g (kind.code ++ n) (data.extractLsb' 32 16)
  w1 := data.extractLsb' 0 32
  w2 := 0
  w3 := 0

/-- A packet of format T5 from its fields: tag 5, group, kind, count, stream id, and thirteen data
bytes, the first in the top byte of `data` (R100). -/
def t5Packet (g : BitVec 4) (kind : FragKind) (n : BitVec 4) (sid : Byte) (data : BitVec 104) : Packet where
  w0 := word0 0x5 g (kind.code ++ n) (sid ++ data.extractLsb' 96 8)
  w1 := data.extractLsb' 64 32
  w2 := data.extractLsb' 32 32
  w3 := data.extractLsb' 0 32

/-- `T3(g, k, L)`, `len(L) ≤ 6` (R99). -/
def t3 (g : BitVec 4) (kind : FragKind) (l : Bytes) : Packet :=
  t3Packet g kind (BitVec.ofNat 4 l.length)
    (byteAt l 0 ++ byteAt l 1 ++ byteAt l 2 ++ byteAt l 3 ++ byteAt l 4 ++ byteAt l 5)

/-- `T5(g, k, sid, L)`, `len(L) ≤ 13`: the stored count is one more than the payload's (R100). -/
def t5 (g : BitVec 4) (kind : FragKind) (sid : Byte) (l : Bytes) : Packet :=
  t5Packet g kind (BitVec.ofNat 4 (l.length + 1)) sid
    (byteAt l 0 ++ byteAt l 1 ++ byteAt l 2 ++ byteAt l 3 ++ byteAt l 4 ++ byteAt l 5 ++ byteAt l 6
      ++ byteAt l 7 ++ byteAt l 8 ++ byteAt l 9 ++ byteAt l 10 ++ byteAt l 11 ++ byteAt l 12)

/-! ## Packets built by the byte-stream parser (30_encoding.md R97, R98) -/

/-- `T1(g, s, d1, d2)`, the system packet (R97). -/
def t1 (g : BitVec 4) (s d1 d2 : Byte) : Packet where
  w0 := word0 0x1 g s (d1 ++ d2)
  w1 := 0
  w2 := 0
  w3 := 0

/-- `T2(g, s, d1, d2)`, the legacy channel-voice packet (R98). -/
def t2 (g : BitVec 4) (s d1 d2 : Byte) : Packet where
  w0 := word0 0x2 g s (d1 ++ d2)
  w1 := 0
  w2 := 0
  w3 := 0

/-! ## Manufacturer id (43_fragment_collectors.md R241, R242) -/

/-- `IDBYTES(mid)`: the id bytes on the wire (R241). -/
def idBytes (mid : BitVec 24) : Bytes :=
  if mid = 0 then []
  else if mid.extractLsb' 16 8 ≠ 0 then [mid.extractLsb' 16 8]
  else [0x00, mid.extractLsb' 8 8, mid.extractLsb' 0 8]

/-- `TOTAL(mid, L)` (R242). -/
def totalSize (mid : BitVec 24) (l : Bytes) : Nat :=
  if mid = 0 then l.length
  else if mid.extractLsb' 16 8 ≠ 0 then l.length + 1
  else l.length + 3

/-- The id a fragmenter accepts: no short form with non-zero low bytes, no id byte ≥ 0x80
(R255, R257). -/
def canonicalId (mid : BitVec 24) : Bool :=
  !(mid.extractLsb' 16 8 != 0 && mid.extractLsb' 0 16 != 0) && (idBytes mid).all fun b => b.toNat < 0x80

/-! ## Legacy bytes (30_encoding.md R103, 42_byte_stream_parser.md R190, R191) -/

/-- The classes of R103. -/
inductive ByteClass where
  | data | cv | sxStart | sc | undef | sxEnd | rt | rtRes
deriving DecidableEq, Repr

/-- `CLASS(b)`, the class column of R103. -/
def classOf (b : Byte) : ByteClass :=
  let n := b.toNat
  if n < 0x80 then .data
  else if n ≤ 0xEF then .cv
  else if n = 0xF0 then .sxStart
  else if n = 0xF4 ∨ n = 0xF5 then .undef
  else if n = 0xF7 then .sxEnd
  else if n = 0xF9 ∨ n = 0xFD then .rtRes
  else if 0xF8 ≤ n then .rt
  else .sc

/-- `DC(s)`, the data count of a status (R191). It is defined for channel-voice and system-common bytes
and is 0 for the others. -/
def dataCount (s : Byte) : Nat :=
  let n := s.toNat
  if 0x80 ≤ n ∧ n ≤ 0xBF then 2
  else if 0xC0 ≤ n ∧ n ≤ 0xDF then 1
  else if 0xE0 ≤ n ∧ n ≤ 0xEF then 2
  else if n = 0xF1 ∨ n = 0xF3 then 1
  else if n = 0xF2 then 2
  else 0

end Sys2Proof.Machine
end

