-- ==== Sys2Proof/Machine/Flags.lean ====
section
/-! DEFINITION. The block has no flag register (10_state.md R33). What it computes in their place are predicate
results, pure functions of operands that nothing stores: family membership and the payload predicates. -/

namespace Sys2Proof.Machine

/-- The family codes of 40_packet.md R149. -/
def isFamilyCode (f : BitVec 4) : Bool :=
  match f.toNat with
  | 0x0 | 0x1 | 0x2 | 0x3 | 0x4 | 0x5 | 0xD | 0xF => true
  | _ => false

/-- `STATUS_OK(f, s)` (R149). A code that names no family has no row there; `PK.ISFAM` refuses it
before this is asked. -/
def statusOk (f : BitVec 4) (s : Byte) : Bool :=
  let n := s.toNat
  match f.toNat with
  | 0x1 => [0xF1, 0xF2, 0xF3, 0xF6, 0xF8, 0xFA, 0xFB, 0xFC, 0xFE, 0xFF].contains n
  | 0x2 => 0x80 ≤ n && n ≤ 0xEF
  | 0x3 => n / 16 ≤ 0x3 && n % 16 ≤ 6
  | 0x5 => n / 16 ≤ 0x3 && 1 ≤ n % 16 && n % 16 ≤ 14
  | _ => true

/-- The family-membership predicate of 40_packet.md R147, for a family code `f`. -/
def isFamily (p : Packet) (f : BitVec 4) : Bool :=
  tagOf p == f && statusOk f (statusOf p)

/-- The 7-bit-clean predicate (43_fragment_collectors.md R243). -/
def is7Bit (l : Bytes) : Bool := l.all fun b => b.toNat < 0x80

/-- The 8-bit predicate (R244). -/
def is8Bit (l : Bytes) : Bool := l.any fun b => 0x80 ≤ b.toNat

end Sys2Proof.Machine
end

