-- ==== Sys2Proof/WellFormed.lean ====
section
/-! DEFINITION. The documented preconditions on an instruction's operands (40_packet.md R148 and the format
tables). The types of `Instr` already hold every width of 30_encoding.md R96; an instruction that is not
well formed is still decoded and still runs: it faults, is refused or is ignored, as its rule says. -/

namespace Sys2Proof

/-- A word count `PK.MAKE` accepts (R137). -/
def WellFormed.wordCount (n : BitVec 3) : Bool := 1 ≤ n.toNat && n.toNat ≤ 4

/-- A start index at which a field of `span` bytes lies within bytes 0..15 (R142). -/
def WellFormed.fieldStart (span : Nat) (i : BitVec 4) : Bool := i.toNat + span ≤ 16

/-- A stored count of a T3 fragment (R99). -/
def WellFormed.t3Count (n : BitVec 4) : Bool := n.toNat ≤ 6

/-- A stored count of a T5 fragment (R100). -/
def WellFormed.t5Count (n : BitVec 4) : Bool := 1 ≤ n.toNat && n.toNat ≤ 14

/-- Every documented precondition on the operands holds. -/
def Instr.wellFormed : Instr → Bool
  | .pkMake n _ _ _ _ => WellFormed.wordCount n
  | .pkGroup p => Machine.tagOf p != 0
  | .pkGet14 _ i => WellFormed.fieldStart 2 i
  | .pkSet14 _ i _ => WellFormed.fieldStart 2 i
  | .pkGet28 _ i => WellFormed.fieldStart 4 i
  | .pkSet28 _ i _ => WellFormed.fieldStart 4 i
  | .pkIsfam _ f => Machine.isFamilyCode f
  | .fr7Frag mid _ _ => Machine.canonicalId mid
  | .fr8Frag mid _ _ _ => Machine.canonicalId mid
  | .t3Complete _ n _ => WellFormed.t3Count n
  | .t3Start _ n _ => WellFormed.t3Count n
  | .t3Cont _ n _ => WellFormed.t3Count n
  | .t3End _ n _ => WellFormed.t3Count n
  | .t5Complete _ n _ _ => WellFormed.t5Count n
  | .t5Start _ n _ _ => WellFormed.t5Count n
  | .t5Cont _ n _ _ => WellFormed.t5Count n
  | .t5End _ n _ _ => WellFormed.t5Count n
  | .pkSize _ | .pkType _ | .pkStatus _ | .pkGetb _ _ | .pkSetb _ _ _ | .pkGet7 _ _ | .pkSet7 _ _ _ => true
  | .pkGetn _ _ | .pkSetn _ _ _ => true
  | .scUp7To16 _ | .scUp7To32 _ | .scUp14To16 _ | .scUp14To32 _ => true
  | .scDn16To7 _ | .scDn32To7 _ | .scDn16To14 _ | .scDn32To14 _ => true
  | .bpFeed _ | .bpReset | .bpCfg _ _ _ | .fc7Feed _ | .fc7Reset | .fc8Feed _ | .fc8Reset | .fc8Cfg _ => true
  | .sxIs7 _ _ | .sxIs8 _ _ | .sxTotal _ _ | .jrSync _ _ | .jrSched _ _ | .jrReset => true
  | .tagUtility _ _ _ | .tagSystem _ _ _ | .tagCv1 _ _ _ | .tagSysex7 _ _ _ _ | .tagCv2 _ _ _ _ => true
  | .tagSysex8 _ _ _ _ _ _ | .tagFlex _ _ _ _ _ _ | .tagStream _ _ _ _ _ _ => true
  | .tagReserved6 _ _ _ | .tagReserved7 _ _ _ | .tagReserved8 _ _ _ | .tagReserved9 _ _ _ => true
  | .tagReservedA _ _ _ | .tagReservedB _ _ _ | .tagReservedC _ _ _ | .tagReservedE _ _ _ => true
  | .byteData _ | .byteCv80 _ | .byteCvC0 _ | .byteCvE0 _ | .byteSxStart | .byteScF1 | .byteScF2 => true
  | .byteScF3 | .byteUndefF4 | .byteUndefF5 | .byteTune | .byteSxEnd | .byteRtF8 | .byteRtResF9 => true
  | .byteRtFA | .byteRtFB | .byteRtFC | .byteRtResFD | .byteRtFE | .byteRtFF => true

end Sys2Proof
end

