-- ==== Sys2Proof/Decode.lean ====
section
/-! DEFINITION. Decoding of the three opcode spaces of 30_encoding.md (command codes R93 to R96, packets R91,
R92, R99 to R101 and R106, legacy bytes R103), the encoder written from the same tables, and the reading of
an opcode-table word. -/

namespace Sys2Proof

/-- Why a transaction has no instruction. -/
inductive DecodeError where
  /-- A command code that R95 reserves: refused as `RESERVED_CMD` (R324). -/
  | reservedCmd (code : Byte)
  /-- Operand fields that are not the ones R96 gives the command: no command of the spec. -/
  | badOperands (code : Byte)
  /-- A packet that is no row's: presented as a fragment with another tag or a reserved kind (R101, R105), or with
  a non-zero word beyond its word count (10_state.md R30). It has an effect, `packetCommand`'s. -/
  | noRow (fmt : PacketFormat) (p : Packet)
deriving DecidableEq, Repr

/-! ## Operand fields (R96) -/

/-- The next operand as a number of `w` bits; a value outside the width is no operand. -/
def withNum {α : Type} (w : Nat) (k : BitVec w → List Field → Option α) : List Field → Option α
  | .num v :: rest => if v < 2 ^ w then k (BitVec.ofNat w v) rest else none
  | _ => none

/-- The next operand as a time, a natural of any size (44_jitter_clock_follower.md R290). -/
def withTime {α : Type} (k : Nat → List Field → Option α) : List Field → Option α
  | .num v :: rest => k v rest
  | _ => none

/-- The next operand as a packet. -/
def withPacket {α : Type} (k : Packet → List Field → Option α) : List Field → Option α
  | .packet p :: rest => k p rest
  | _ => none

/-- The next operand as a byte list. -/
def withBytes {α : Type} (k : Bytes → List Field → Option α) : List Field → Option α
  | .bytes l :: rest => k l rest
  | _ => none

/-- The next operand as `none` or a natural. -/
def withLimit {α : Type} (k : Option Nat → List Field → Option α) : List Field → Option α
  | .limit m :: rest => k m rest
  | _ => none

/-- No operand is left. -/
def noMore (i : Instr) : List Field → Option Instr
  | [] => some i
  | _ :: _ => none

/-- The operands of a command whose code is not reserved. -/
def operands (code : Byte) (i : Option Instr) : Except DecodeError Instr :=
  match i with
  | some i => .ok i
  | none => .error (.badOperands code)

/-- The command code map (R94) with the operand fields of R96; every other code is reserved (R95). -/
def decodeCmd (code : Byte) (fs : List Field) : Except DecodeError Instr :=
  match code.toNat with
  | 0x00 => operands code ((withNum 3 fun n => withNum 32 fun a0 => withNum 32 fun a1 => withNum 32 fun a2 => withNum 32 fun a3 => noMore (.pkMake n a0 a1 a2 a3)) fs)
  | 0x01 => operands code ((withPacket fun p => noMore (.pkSize p)) fs)
  | 0x02 => operands code ((withPacket fun p => noMore (.pkType p)) fs)
  | 0x03 => operands code ((withPacket fun p => noMore (.pkGroup p)) fs)
  | 0x04 => operands code ((withPacket fun p => noMore (.pkStatus p)) fs)
  | 0x05 => operands code ((withPacket fun p => withNum 4 fun i => noMore (.pkGetb p i)) fs)
  | 0x06 => operands code ((withPacket fun p => withNum 4 fun i => withNum 8 fun v => noMore (.pkSetb p i v)) fs)
  | 0x07 => operands code ((withPacket fun p => withNum 4 fun i => noMore (.pkGet7 p i)) fs)
  | 0x08 => operands code ((withPacket fun p => withNum 4 fun i => withNum 8 fun v => noMore (.pkSet7 p i v)) fs)
  | 0x09 => operands code ((withPacket fun p => withNum 4 fun i => noMore (.pkGet14 p i)) fs)
  | 0x0A => operands code ((withPacket fun p => withNum 4 fun i => withNum 14 fun v => noMore (.pkSet14 p i v)) fs)
  | 0x0B => operands code ((withPacket fun p => withNum 4 fun i => noMore (.pkGet28 p i)) fs)
  | 0x0C => operands code ((withPacket fun p => withNum 4 fun i => withNum 28 fun v => noMore (.pkSet28 p i v)) fs)
  | 0x0D => operands code ((withPacket fun p => withNum 5 fun k => noMore (.pkGetn p k)) fs)
  | 0x0E => operands code ((withPacket fun p => withNum 5 fun k => withNum 4 fun v => noMore (.pkSetn p k v)) fs)
  | 0x0F => operands code ((withPacket fun p => withNum 4 fun f => noMore (.pkIsfam p f)) fs)
  | 0x10 => operands code ((withNum 7 fun v => noMore (.scUp7To16 v)) fs)
  | 0x11 => operands code ((withNum 7 fun v => noMore (.scUp7To32 v)) fs)
  | 0x12 => operands code ((withNum 14 fun v => noMore (.scUp14To16 v)) fs)
  | 0x13 => operands code ((withNum 14 fun v => noMore (.scUp14To32 v)) fs)
  | 0x14 => operands code ((withNum 16 fun v => noMore (.scDn16To7 v)) fs)
  | 0x15 => operands code ((withNum 32 fun v => noMore (.scDn32To7 v)) fs)
  | 0x16 => operands code ((withNum 16 fun v => noMore (.scDn16To14 v)) fs)
  | 0x17 => operands code ((withNum 32 fun v => noMore (.scDn32To14 v)) fs)
  | 0x20 => operands code ((withNum 8 fun b => noMore (.bpFeed b)) fs)
  | 0x21 => operands code ((noMore .bpReset) fs)
  | 0x22 => operands code ((withNum 4 fun g => withNum 1 fun e => withNum 1 fun m => noMore (.bpCfg g e m)) fs)
  | 0x30 => operands code ((withPacket fun p => noMore (.fc7Feed p)) fs)
  | 0x31 => operands code ((noMore .fc7Reset) fs)
  | 0x40 => operands code ((withPacket fun p => noMore (.fc8Feed p)) fs)
  | 0x41 => operands code ((noMore .fc8Reset) fs)
  | 0x42 => operands code ((withLimit fun max => noMore (.fc8Cfg max)) fs)
  | 0x50 => operands code ((withNum 24 fun mid => withBytes fun l => noMore (.sxIs7 mid l)) fs)
  | 0x51 => operands code ((withNum 24 fun mid => withBytes fun l => noMore (.sxIs8 mid l)) fs)
  | 0x52 => operands code ((withNum 24 fun mid => withBytes fun l => noMore (.sxTotal mid l)) fs)
  | 0x53 => operands code ((withNum 24 fun mid => withBytes fun l => withNum 4 fun g => noMore (.fr7Frag mid l g)) fs)
  | 0x54 => operands code ((withNum 24 fun mid => withBytes fun l => withNum 4 fun g => withNum 8 fun sid => noMore (.fr8Frag mid l g sid)) fs)
  | 0x60 => operands code ((withTime fun t => withNum 16 fun ts => noMore (.jrSync t ts)) fs)
  | 0x61 => operands code ((withTime fun t => withNum 16 fun ts => noMore (.jrSched t ts)) fs)
  | 0x62 => operands code ((noMore .jrReset) fs)
  | _ => .error (.reservedCmd code)

/-! ## Packets (R91, R92, R99 to R101, R106) -/

/-- The fields of word 0 after the tag (R91). -/
def groupField (w : Word) : BitVec 4 := w.extractLsb' 24 4
/-- The status byte of word 0 (R91). -/
def statusField (w : Word) : Byte := w.extractLsb' 16 8
/-- The low half of word 0 (R91). -/
def dataField (w : Word) : BitVec 16 := w.extractLsb' 0 16

/-- The row of a one-word packet. -/
def oneWord (p : Packet) (i : Instr) : Except DecodeError Instr :=
  if p.w1 = 0 ∧ p.w2 = 0 ∧ p.w3 = 0 then .ok i else .error (.noRow .w0 p)

/-- The row of a two-word packet. -/
def twoWords (p : Packet) (i : Instr) : Except DecodeError Instr :=
  if p.w2 = 0 ∧ p.w3 = 0 then .ok i else .error (.noRow .w0 p)

/-- A packet presented to the type decoder: the tag alone decides its row and how many words it has (R92, R106). -/
def decodeW0 (p : Packet) : Except DecodeError Instr :=
  let g := groupField p.w0
  let status := statusField p.w0
  let data := dataField p.w0
  match (Machine.tagOf p).toNat with
  | 0x0 => oneWord p (.tagUtility g status data)
  | 0x1 => oneWord p (.tagSystem g status data)
  | 0x2 => oneWord p (.tagCv1 g status data)
  | 0x3 => twoWords p (.tagSysex7 g status data p.w1)
  | 0x4 => twoWords p (.tagCv2 g status data p.w1)
  | 0x5 => .ok (.tagSysex8 g status data p.w1 p.w2 p.w3)
  | 0x6 => oneWord p (.tagReserved6 g status data)
  | 0x7 => oneWord p (.tagReserved7 g status data)
  | 0x8 => oneWord p (.tagReserved8 g status data)
  | 0x9 => oneWord p (.tagReserved9 g status data)
  | 0xA => oneWord p (.tagReservedA g status data)
  | 0xB => oneWord p (.tagReservedB g status data)
  | 0xC => oneWord p (.tagReservedC g status data)
  | 0xD => .ok (.tagFlex g status data p.w1 p.w2 p.w3)
  | 0xE => oneWord p (.tagReservedE g status data)
  | _ => .ok (.tagStream g status data p.w1 p.w2 p.w3)

/-- A packet presented as a 7-bit fragment (R99, R101). -/
def decodeT3 (p : Packet) : Except DecodeError Instr :=
  if Machine.tagOf p = 0x3 ∧ p.w2 = 0 ∧ p.w3 = 0 then
    match (Machine.kindOf p).toNat with
    | 0 => .ok (.t3Complete (groupField p.w0) (Machine.countOf p) (dataField p.w0 ++ p.w1))
    | 1 => .ok (.t3Start (groupField p.w0) (Machine.countOf p) (dataField p.w0 ++ p.w1))
    | 2 => .ok (.t3Cont (groupField p.w0) (Machine.countOf p) (dataField p.w0 ++ p.w1))
    | 3 => .ok (.t3End (groupField p.w0) (Machine.countOf p) (dataField p.w0 ++ p.w1))
    | _ => .error (.noRow .t3 p)
  else .error (.noRow .t3 p)

/-- The stream id of a T5 fragment, w0[15:8] (R100). -/
def sidField (w : Word) : Byte := w.extractLsb' 8 8
/-- The data bytes of a T5 fragment, the first on top (R100). -/
def t5Data (p : Packet) : BitVec 104 := p.w0.extractLsb' 0 8 ++ p.w1 ++ p.w2 ++ p.w3

/-- A packet presented as an 8-bit fragment (R100, R101). -/
def decodeT5 (p : Packet) : Except DecodeError Instr :=
  if Machine.tagOf p = 0x5 then
    match (Machine.kindOf p).toNat with
    | 0 => .ok (.t5Complete (groupField p.w0) (Machine.countOf p) (sidField p.w0) (t5Data p))
    | 1 => .ok (.t5Start (groupField p.w0) (Machine.countOf p) (sidField p.w0) (t5Data p))
    | 2 => .ok (.t5Cont (groupField p.w0) (Machine.countOf p) (sidField p.w0) (t5Data p))
    | 3 => .ok (.t5End (groupField p.w0) (Machine.countOf p) (sidField p.w0) (t5Data p))
    | _ => .error (.noRow .t5 p)
  else .error (.noRow .t5 p)

/-- The command that gives a presented packet to its unit: the type decoder, or the collector of its format (log 8).
It is what a packet without a row runs; a row does the same. -/
def packetCommand (fmt : PacketFormat) (p : Packet) : Instr :=
  match fmt with
  | .w0 => .pkSize p
  | .t3 => .fc7Feed p
  | .t5 => .fc8Feed p

/-! ## Legacy bytes (R103) -/

/-- A legacy byte by its class (R103): every byte has one. -/
def decodeByte (b : Byte) : Instr :=
  if b.toNat < 0x80 then .byteData (b.extractLsb' 0 7)
  else if b.toNat < 0xC0 then .byteCv80 (b.extractLsb' 0 6)
  else if b.toNat < 0xE0 then .byteCvC0 (b.extractLsb' 0 5)
  else if b.toNat < 0xF0 then .byteCvE0 (b.extractLsb' 0 4)
  else
    match b.toNat with
    | 0xF0 => .byteSxStart
    | 0xF1 => .byteScF1
    | 0xF2 => .byteScF2
    | 0xF3 => .byteScF3
    | 0xF4 => .byteUndefF4
    | 0xF5 => .byteUndefF5
    | 0xF6 => .byteTune
    | 0xF7 => .byteSxEnd
    | 0xF8 => .byteRtF8
    | 0xF9 => .byteRtResF9
    | 0xFA => .byteRtFA
    | 0xFB => .byteRtFB
    | 0xFC => .byteRtFC
    | 0xFD => .byteRtResFD
    | 0xFE => .byteRtFE
    | _ => .byteRtFF

/-- The instruction of a transaction, or the reason it has none. -/
def decode : Raw → Except DecodeError Instr
  | .cmd code fs => decodeCmd code fs
  | .packet .w0 p => decodeW0 p
  | .packet .t3 p => decodeT3 p
  | .packet .t5 p => decodeT5 p
  | .byte b => .ok (decodeByte b)

/-! ## The encoder -/

/-- The transaction of an instruction, from the tables of 30_encoding.md. -/
def encode : Instr → Raw
  | .pkMake n a0 a1 a2 a3 => .cmd 0x00 [.num n.toNat, .num a0.toNat, .num a1.toNat, .num a2.toNat, .num a3.toNat]
  | .pkSize p => .cmd 0x01 [.packet p]
  | .pkType p => .cmd 0x02 [.packet p]
  | .pkGroup p => .cmd 0x03 [.packet p]
  | .pkStatus p => .cmd 0x04 [.packet p]
  | .pkGetb p i => .cmd 0x05 [.packet p, .num i.toNat]
  | .pkSetb p i v => .cmd 0x06 [.packet p, .num i.toNat, .num v.toNat]
  | .pkGet7 p i => .cmd 0x07 [.packet p, .num i.toNat]
  | .pkSet7 p i v => .cmd 0x08 [.packet p, .num i.toNat, .num v.toNat]
  | .pkGet14 p i => .cmd 0x09 [.packet p, .num i.toNat]
  | .pkSet14 p i v => .cmd 0x0A [.packet p, .num i.toNat, .num v.toNat]
  | .pkGet28 p i => .cmd 0x0B [.packet p, .num i.toNat]
  | .pkSet28 p i v => .cmd 0x0C [.packet p, .num i.toNat, .num v.toNat]
  | .pkGetn p k => .cmd 0x0D [.packet p, .num k.toNat]
  | .pkSetn p k v => .cmd 0x0E [.packet p, .num k.toNat, .num v.toNat]
  | .pkIsfam p f => .cmd 0x0F [.packet p, .num f.toNat]
  | .scUp7To16 v => .cmd 0x10 [.num v.toNat]
  | .scUp7To32 v => .cmd 0x11 [.num v.toNat]
  | .scUp14To16 v => .cmd 0x12 [.num v.toNat]
  | .scUp14To32 v => .cmd 0x13 [.num v.toNat]
  | .scDn16To7 v => .cmd 0x14 [.num v.toNat]
  | .scDn32To7 v => .cmd 0x15 [.num v.toNat]
  | .scDn16To14 v => .cmd 0x16 [.num v.toNat]
  | .scDn32To14 v => .cmd 0x17 [.num v.toNat]
  | .bpFeed b => .cmd 0x20 [.num b.toNat]
  | .bpReset => .cmd 0x21 []
  | .bpCfg g e m => .cmd 0x22 [.num g.toNat, .num e.toNat, .num m.toNat]
  | .fc7Feed p => .cmd 0x30 [.packet p]
  | .fc7Reset => .cmd 0x31 []
  | .fc8Feed p => .cmd 0x40 [.packet p]
  | .fc8Reset => .cmd 0x41 []
  | .fc8Cfg max => .cmd 0x42 [.limit max]
  | .sxIs7 mid l => .cmd 0x50 [.num mid.toNat, .bytes l]
  | .sxIs8 mid l => .cmd 0x51 [.num mid.toNat, .bytes l]
  | .sxTotal mid l => .cmd 0x52 [.num mid.toNat, .bytes l]
  | .fr7Frag mid l g => .cmd 0x53 [.num mid.toNat, .bytes l, .num g.toNat]
  | .fr8Frag mid l g sid => .cmd 0x54 [.num mid.toNat, .bytes l, .num g.toNat, .num sid.toNat]
  | .jrSync t ts => .cmd 0x60 [.num t, .num ts.toNat]
  | .jrSched t ts => .cmd 0x61 [.num t, .num ts.toNat]
  | .jrReset => .cmd 0x62 []
  | .tagUtility g status data => .packet .w0 ⟨Machine.word0 0x0 g status data, 0, 0, 0⟩
  | .tagSystem g status data => .packet .w0 ⟨Machine.word0 0x1 g status data, 0, 0, 0⟩
  | .tagCv1 g status data => .packet .w0 ⟨Machine.word0 0x2 g status data, 0, 0, 0⟩
  | .tagSysex7 g status data w1 => .packet .w0 ⟨Machine.word0 0x3 g status data, w1, 0, 0⟩
  | .tagCv2 g status data w1 => .packet .w0 ⟨Machine.word0 0x4 g status data, w1, 0, 0⟩
  | .tagSysex8 g status data w1 w2 w3 => .packet .w0 ⟨Machine.word0 0x5 g status data, w1, w2, w3⟩
  | .tagFlex g status data w1 w2 w3 => .packet .w0 ⟨Machine.word0 0xD g status data, w1, w2, w3⟩
  | .tagStream g status data w1 w2 w3 => .packet .w0 ⟨Machine.word0 0xF g status data, w1, w2, w3⟩
  | .tagReserved6 g status data => .packet .w0 ⟨Machine.word0 0x6 g status data, 0, 0, 0⟩
  | .tagReserved7 g status data => .packet .w0 ⟨Machine.word0 0x7 g status data, 0, 0, 0⟩
  | .tagReserved8 g status data => .packet .w0 ⟨Machine.word0 0x8 g status data, 0, 0, 0⟩
  | .tagReserved9 g status data => .packet .w0 ⟨Machine.word0 0x9 g status data, 0, 0, 0⟩
  | .tagReservedA g status data => .packet .w0 ⟨Machine.word0 0xA g status data, 0, 0, 0⟩
  | .tagReservedB g status data => .packet .w0 ⟨Machine.word0 0xB g status data, 0, 0, 0⟩
  | .tagReservedC g status data => .packet .w0 ⟨Machine.word0 0xC g status data, 0, 0, 0⟩
  | .tagReservedE g status data => .packet .w0 ⟨Machine.word0 0xE g status data, 0, 0, 0⟩
  | .t3Complete g n data => .packet .t3 (Machine.t3Packet g .complete n data)
  | .t5Complete g n sid data => .packet .t5 (Machine.t5Packet g .complete n sid data)
  | .t3Start g n data => .packet .t3 (Machine.t3Packet g .start n data)
  | .t5Start g n sid data => .packet .t5 (Machine.t5Packet g .start n sid data)
  | .t3Cont g n data => .packet .t3 (Machine.t3Packet g .cont n data)
  | .t5Cont g n sid data => .packet .t5 (Machine.t5Packet g .cont n sid data)
  | .t3End g n data => .packet .t3 (Machine.t3Packet g .end_ n data)
  | .t5End g n sid data => .packet .t5 (Machine.t5Packet g .end_ n sid data)
  | .byteData v => .byte (0b0#1 ++ v)
  | .byteCv80 v => .byte (0b10#2 ++ v)
  | .byteCvC0 v => .byte (0b110#3 ++ v)
  | .byteCvE0 v => .byte (0b1110#4 ++ v)
  | .byteSxStart => .byte 0xF0
  | .byteScF1 => .byte 0xF1
  | .byteScF2 => .byte 0xF2
  | .byteScF3 => .byte 0xF3
  | .byteUndefF4 => .byte 0xF4
  | .byteUndefF5 => .byte 0xF5
  | .byteTune => .byte 0xF6
  | .byteSxEnd => .byte 0xF7
  | .byteRtF8 => .byte 0xF8
  | .byteRtResF9 => .byte 0xF9
  | .byteRtFA => .byte 0xFA
  | .byteRtFB => .byte 0xFB
  | .byteRtFC => .byte 0xFC
  | .byteRtResFD => .byte 0xFD
  | .byteRtFE => .byte 0xFE
  | .byteRtFF => .byte 0xFF

/-- The unit kind that runs an instruction: the high nibble of a command code (R93, R94); the type decoder for a packet, the
collectors for their fragments, the parser for a legacy byte (log 4, log 8). -/
def unitOf : Instr → UnitKind
  | .pkMake _ _ _ _ _ => .pk
  | .pkSize _ => .pk
  | .pkType _ => .pk
  | .pkGroup _ => .pk
  | .pkStatus _ => .pk
  | .pkGetb _ _ => .pk
  | .pkSetb _ _ _ => .pk
  | .pkGet7 _ _ => .pk
  | .pkSet7 _ _ _ => .pk
  | .pkGet14 _ _ => .pk
  | .pkSet14 _ _ _ => .pk
  | .pkGet28 _ _ => .pk
  | .pkSet28 _ _ _ => .pk
  | .pkGetn _ _ => .pk
  | .pkSetn _ _ _ => .pk
  | .pkIsfam _ _ => .pk
  | .scUp7To16 _ => .sc
  | .scUp7To32 _ => .sc
  | .scUp14To16 _ => .sc
  | .scUp14To32 _ => .sc
  | .scDn16To7 _ => .sc
  | .scDn32To7 _ => .sc
  | .scDn16To14 _ => .sc
  | .scDn32To14 _ => .sc
  | .bpFeed _ => .bp
  | .bpReset => .bp
  | .bpCfg _ _ _ => .bp
  | .fc7Feed _ => .fc7
  | .fc7Reset => .fc7
  | .fc8Feed _ => .fc8
  | .fc8Reset => .fc8
  | .fc8Cfg _ => .fc8
  | .sxIs7 _ _ => .sx
  | .sxIs8 _ _ => .sx
  | .sxTotal _ _ => .sx
  | .fr7Frag _ _ _ => .sx
  | .fr8Frag _ _ _ _ => .sx
  | .jrSync _ _ => .jr
  | .jrSched _ _ => .jr
  | .jrReset => .jr
  | .tagUtility _ _ _ => .pk
  | .tagSystem _ _ _ => .pk
  | .tagCv1 _ _ _ => .pk
  | .tagSysex7 _ _ _ _ => .pk
  | .tagCv2 _ _ _ _ => .pk
  | .tagSysex8 _ _ _ _ _ _ => .pk
  | .tagFlex _ _ _ _ _ _ => .pk
  | .tagStream _ _ _ _ _ _ => .pk
  | .tagReserved6 _ _ _ => .pk
  | .tagReserved7 _ _ _ => .pk
  | .tagReserved8 _ _ _ => .pk
  | .tagReserved9 _ _ _ => .pk
  | .tagReservedA _ _ _ => .pk
  | .tagReservedB _ _ _ => .pk
  | .tagReservedC _ _ _ => .pk
  | .tagReservedE _ _ _ => .pk
  | .t3Complete _ _ _ => .fc7
  | .t5Complete _ _ _ _ => .fc8
  | .t3Start _ _ _ => .fc7
  | .t5Start _ _ _ _ => .fc8
  | .t3Cont _ _ _ => .fc7
  | .t5Cont _ _ _ _ => .fc8
  | .t3End _ _ _ => .fc7
  | .t5End _ _ _ _ => .fc8
  | .byteData _ => .bp
  | .byteCv80 _ => .bp
  | .byteCvC0 _ => .bp
  | .byteCvE0 _ => .bp
  | .byteSxStart => .bp
  | .byteScF1 => .bp
  | .byteScF2 => .bp
  | .byteScF3 => .bp
  | .byteUndefF4 => .bp
  | .byteUndefF5 => .bp
  | .byteTune => .bp
  | .byteSxEnd => .bp
  | .byteRtF8 => .bp
  | .byteRtResF9 => .bp
  | .byteRtFA => .bp
  | .byteRtFB => .bp
  | .byteRtFC => .bp
  | .byteRtResFD => .bp
  | .byteRtFE => .bp
  | .byteRtFF => .bp

/-! ## Opcode-table words -/

/-- The operand fields of a command with every operand 0, empty or absent. -/
def zeroFields (code : Byte) : List Field :=
  let z : Field := .num 0
  let p : Field := .packet ⟨0, 0, 0, 0⟩
  match code.toNat with
  | 0x00 => [z, z, z, z, z]
  | 0x01 | 0x02 | 0x03 | 0x04 | 0x30 | 0x40 => [p]
  | 0x05 | 0x07 | 0x09 | 0x0B | 0x0D | 0x0F => [p, z]
  | 0x06 | 0x08 | 0x0A | 0x0C | 0x0E => [p, z, z]
  | 0x10 | 0x11 | 0x12 | 0x13 | 0x14 | 0x15 | 0x16 | 0x17 | 0x20 => [z]
  | 0x22 => [z, z, z]
  | 0x42 => [.limit none]
  | 0x50 | 0x51 | 0x52 => [z, .bytes []]
  | 0x53 => [z, .bytes [], z]
  | 0x54 => [z, .bytes [], z, z]
  | 0x60 | 0x61 => [z, z]
  | _ => []

/-- The packet whose word 0 is the lowest 32 of the bits `w`, and so on. -/
def packetFrom (w : Nat) : Packet :=
  ⟨BitVec.ofNat 32 w, BitVec.ofNat 32 (w >>> 32), BitVec.ofNat 32 (w >>> 64), BitVec.ofNat 32 (w >>> 96)⟩

/-- The first of some transactions that the decoder gives an instruction. -/
def firstDecoded : List Raw → Option (Raw × Instr)
  | [] => none
  | r :: rest =>
    match decode r with
    | .ok i => some (r, i)
    | .error _ => firstDecoded rest

/-- The transactions a table word can be. A table word does not say its opcode space: 8 bits are a
command code with zero operands, else a legacy byte; 32 bits are a fragment, else a packet (log 9). -/
def tableRaws (nbits w : Nat) : List Raw :=
  if nbits ≤ 8 then
    [.cmd (BitVec.ofNat 8 w) (zeroFields (BitVec.ofNat 8 w)), .byte (BitVec.ofNat 8 w)]
  else
    [.packet .t3 (packetFrom w), .packet .t5 (packetFrom w), .packet .w0 (packetFrom w)]

/-- The instruction the decoder reads from an opcode-table word. -/
def decodeTableWord (nbits w : Nat) : Option Instr :=
  (firstDecoded (tableRaws nbits w)).map Prod.snd

end Sys2Proof
end

