-- ==== Sys2Proof/Machine/State.lean ====
section
/-! DEFINITION. The machine's state as plain data: every field 10_state.md gives a unit, the fault record and the
refused mark of 60_exceptions.md, and the model's own input, output and free-draw fields. -/

namespace Sys2Proof.Machine

/-! ## Outcomes, results and events -/

/-- The fault catalogue (60_exceptions.md R323). -/
inductive FaultReason where
  /-- `PK.GROUP` on a UTILITY packet (R132). -/
  | grouplessUtility
  /-- `PK.MAKE` with a word count outside 1..4 (R137). -/
  | badWordCount
  /-- A composite field that would reach past byte 15 (R142). -/
  | fieldRange
  /-- A fragmenter given an id that is not canonical (R255, R257). -/
  | noncanonicalId
deriving DecidableEq, Repr

/-- The refusal catalogue (R325). -/
inductive RefuseReason where
  | reservedCmd | wrongUnit | noSuchFamily | bufOverflow | modeChangeInSysex | timeOverflow
deriving DecidableEq, Repr

/-- One output item of a step (30_encoding.md R93). A payload carries a truncation mark only when
`FC8_TRUNC_FLAG` is set. -/
inductive Event where
  | packet (p : Packet)
  | payload (mid : BitVec 24) (data : Bytes) (trunc : Option Bool)
deriving DecidableEq, Repr

/-- The result of a command, with the width of R96. -/
inductive Result where
  | bit (v : Bool)
  | bits3 (v : BitVec 3)
  | bits4 (v : BitVec 4)
  | bits7 (v : BitVec 7)
  | bits8 (v : BitVec 8)
  | bits14 (v : BitVec 14)
  | bits16 (v : BitVec 16)
  | bits28 (v : BitVec 28)
  | bits32 (v : BitVec 32)
  | nat (v : Nat)
  | time (t : Nat)
  | packet (p : Packet)
  | packets (l : List Packet)
deriving DecidableEq, Repr

/-- The outcome of a step (R320). -/
inductive Report where
  | ok
  | fault (r : FaultReason)
  | refused (r : RefuseReason)
deriving DecidableEq, Repr

/-- What one command returns to the host: its outcome, its result if it has one, and its events in
delivery order (00_scope.md R4, R320). -/
structure Response where
  report : Report
  result : Option Result
  events : List Event
deriving DecidableEq, Repr

/-! ## Unit state (10_state.md) -/

/-- The manufacturer id under decode and the payload bytes: the `(mc, mid, buf)` that
43_fragment_collectors.md R240 acts on, held by BP, FC7 and FC8 alike. -/
structure Accum where
  mc : Nat
  mid : BitVec 24
  buf : Bytes
deriving DecidableEq, Repr

/-- BP's delivery of system-exclusive data, `cfg_mode` (R38). -/
inductive SysexMode where
  | packets | payload
deriving DecidableEq, Repr

/-- One byte-stream parser (R36). -/
structure Bp where
  cfgGroup : BitVec 4
  cfgEmit : Bool
  cfgMode : SysexMode
  st : Option Byte
  need : Nat
  cur : Nat
  d0 : Byte
  d1 : Byte
  rs : Option Byte
  sx : Bool
  fb : Bytes
  ffirst : Bool
  acc : Accum
deriving DecidableEq, Repr

/-- The phase of a collector (R44). -/
inductive Phase where
  | idle | cont
deriving DecidableEq, Repr

/-- One seven-bit collector (R44). -/
structure Fc7 where
  ph : Phase
  acc : Accum
deriving DecidableEq, Repr

/-- One eight-bit collector (R45, R46). -/
structure Fc8 where
  ph : Phase
  acc : Accum
  act : BitVec 8
  tr : Bool
  max : Option Nat
deriving DecidableEq, Repr

/-- One jitter clock follower (R47). -/
structure Jr where
  init : Bool
  lts : BitVec 16
  ref : Nat
  wm : Nat
  jit : Nat
  sec : Nat
deriving DecidableEq, Repr

/-! ## The machine -/

/-- The whole machine. An instance bank lists, by instance number, the instances that are not in their
power-on state (R34, R335, R340; log 3). -/
structure State where
  /-- The parameters of R11; no step writes them. -/
  params : Params
  /-- The commands the host has issued and the block has not taken, the next one first (log 1). -/
  inbox : List Frame
  /-- The instance the command in progress is addressed to (R93; log 3). -/
  target : Target
  /-- The byte-stream parsers. -/
  bp : List (Nat × Bp)
  /-- The seven-bit collectors. -/
  fc7 : List (Nat × Fc7)
  /-- The eight-bit collectors. -/
  fc8 : List (Nat × Fc8)
  /-- The clock followers. -/
  jr : List (Nat × Jr)
  /-- The fault record of the whole model (R322). -/
  faultRec : Option FaultReason
  /-- The refused mark of the whole model (R324). -/
  refusedMark : Bool
  /-- What the commands taken so far have returned, the oldest first (log 2). -/
  responses : List Response
  /-- How many free draws `JR.SCHED` has made (R293; log 11). -/
  draws : Nat
deriving DecidableEq, Repr

/-- The reasons a step stops. -/
inductive Fault where
  /-- Raised by `step` on a state whose fault record is set: a faulted model takes no further step (R322).
  Safe: the machine of the spec does nothing either. -/
  | quiescent (reason : FaultReason)
deriving DecidableEq, Repr

/-- The reasons a step gives a transaction no meaning. -/
inductive Refusal where
  /-- Raised by `exec`'s arms for an instruction without a meaning; no arm does. Safe. -/
  | notModelled (mnemonic : String)
  /-- Raised by `step` when the next transaction is no command of the spec: operand fields other than the ones
  30_encoding.md R96 gives the code, or a number outside its width (log 7). Safe: R96 says that such a transaction
  cannot be expressed. -/
  | malformedFrame (why : DecodeError)
deriving DecidableEq, Repr

/-- Power-on (70_reset_and_hazards.md R340): every instance in its power-on state, the fault record and
the refused mark clear, nothing issued and nothing returned. -/
def State.reset : State where
  params := Params.default
  inbox := []
  target := ⟨.pk, 0⟩
  bp := []
  fc7 := []
  fc8 := []
  jr := []
  faultRec := none
  refusedMark := false
  responses := []
  draws := 0

end Sys2Proof.Machine
end

