-- ==== Sys2Proof/Machine/Ops.lean ====
section
/-! DEFINITION. The shared operations: power-on values, instance banks, the three outcomes of a command (ending in
OK, raising a fault, being refused), running a command on the addressed instance, taking the next
transaction, and the manufacturer-id routing that three units share. -/

namespace Sys2Proof.Machine

/-! ## Power-on values (10_state.md R36, R44 to R47) -/

/-- `mc = 0`, `mid = 0`, `buf = []`. -/
def Accum.clear : Accum := ⟨0, 0, []⟩

/-- BP at power-on (R36, R340). -/
def Bp.powerOn : Bp where
  cfgGroup := 0
  cfgEmit := true
  cfgMode := .packets
  st := none
  need := 0
  cur := 0
  d0 := 0
  d1 := 0
  rs := none
  sx := false
  fb := []
  ffirst := true
  acc := Accum.clear

/-- FC7 at power-on (R44). -/
def Fc7.powerOn : Fc7 := ⟨.idle, Accum.clear⟩

/-- FC8 at power-on (R45, R46). -/
def Fc8.powerOn : Fc8 := ⟨.idle, Accum.clear, 0, false, none⟩

/-- JR at power-on (R47). -/
def Jr.powerOn (c : Params) : Jr := ⟨false, 0, 0, 0, 0, c.jrInitSec⟩

/-! ## Instance banks (R34, R335; log 3) -/

/-- The state of instance `n`: an unlisted instance is in its power-on state. -/
def bankGet {σ : Type} (powerOn : σ) (bank : List (Nat × σ)) (n : Nat) : σ :=
  match bank with
  | [] => powerOn
  | (k, v) :: rest => if k = n then v else bankGet powerOn rest n

/-- Instance `n` put in its place of a bank that does not list it. -/
def bankInsert {σ : Type} (n : Nat) (u : σ) : List (Nat × σ) → List (Nat × σ)
  | [] => [(n, u)]
  | (k, v) :: rest => if n < k then (n, u) :: (k, v) :: rest else (k, v) :: bankInsert n u rest

/-- A bank with instance `n` set, in canonical form: an instance in its power-on state is not listed. -/
def bankSet {σ : Type} [DecidableEq σ] (powerOn : σ) (bank : List (Nat × σ)) (n : Nat) (u : σ) : List (Nat × σ) :=
  let others := bank.filter fun e => e.1 != n
  if u = powerOn then others else bankInsert n u others

/-- The canonical form: instance numbers strictly rising, no instance in its power-on state listed. -/
def bankWf {σ : Type} [DecidableEq σ] (powerOn : σ) (bank : List (Nat × σ)) : Bool :=
  decide (bank.Pairwise fun a b => a.1 < b.1) && bank.all fun e => e.2 != powerOn

/-- The parser with number `n`. -/
def State.bpAt (s : State) (n : Nat) : Bp := bankGet Bp.powerOn s.bp n
/-- The seven-bit collector with number `n`. -/
def State.fc7At (s : State) (n : Nat) : Fc7 := bankGet Fc7.powerOn s.fc7 n
/-- The eight-bit collector with number `n`. -/
def State.fc8At (s : State) (n : Nat) : Fc8 := bankGet Fc8.powerOn s.fc8 n
/-- The clock follower with number `n`. -/
def State.jrAt (s : State) (n : Nat) : Jr := bankGet (Jr.powerOn s.params) s.jr n

/-- The parser with number `n` replaced. -/
def State.setBp (s : State) (n : Nat) (u : Bp) : State := { s with bp := bankSet Bp.powerOn s.bp n u }
/-- The seven-bit collector with number `n` replaced. -/
def State.setFc7 (s : State) (n : Nat) (u : Fc7) : State := { s with fc7 := bankSet Fc7.powerOn s.fc7 n u }
/-- The eight-bit collector with number `n` replaced. -/
def State.setFc8 (s : State) (n : Nat) (u : Fc8) : State := { s with fc8 := bankSet Fc8.powerOn s.fc8 n u }
/-- The clock follower with number `n` replaced. -/
def State.setJr (s : State) (n : Nat) (u : Jr) : State :=
  { s with jr := bankSet (Jr.powerOn s.params) s.jr n u }

/-! ## The outcomes of a command (60_exceptions.md R320 to R326) -/

/-- What a command's pseudocode ends in (00_scope.md R15). -/
inductive Reply (α : Type) where
  | ok (a : α)
  | fault (r : FaultReason)
  | refuse (r : RefuseReason)
deriving DecidableEq, Repr

/-- One response handed to the host. -/
def State.respond (s : State) (r : Response) : State := { s with responses := s.responses ++ [r] }

/-- OK: the result and the events are delivered (R320). -/
def State.finish (s : State) (result : Option Result) (events : List Event) : State :=
  s.respond ⟨.ok, result, events⟩

/-- Taking a fault (R322): the reason goes into the fault record; no unit is written, nothing is
emitted and nothing is returned. There is no return from it (R330). -/
def State.raise (s : State) (r : FaultReason) : State :=
  { s.respond ⟨.fault r, none, []⟩ with faultRec := some r }

/-- Taking a refusal (R324): the refused mark is set; no unit is written, nothing is emitted and nothing is
returned. -/
def State.refuse (s : State) (r : RefuseReason) : State :=
  { s.respond ⟨.refused r, none, []⟩ with refusedMark := true }

/-- One free draw has been used. -/
def State.drawn (s : State) : State := { s with draws := s.draws + 1 }

/-! ## Running a command on the addressed instance (R93, R95, R326) -/

/-- The outcome type of `exec`. -/
abbrev Step := Host.Outcome State Fault Refusal

/-- `WRONG_UNIT` comes before the command's own checks (R326). -/
def atUnit (u : UnitKind) (s : State) (body : Step) : Step :=
  if s.target.unit = u then body else .next (s.refuse .wrongUnit)

/-- A command of a stateless unit: it only answers (20_memory.md R77). -/
def answer (u : UnitKind) (r : Reply Result) (s : State) : Step :=
  atUnit u s <|
    match r with
    | .ok v => .next (s.finish (some v) [])
    | .fault f => .next (s.raise f)
    | .refuse f => .next (s.refuse f)

/-- A command of a stateful unit: it writes the instance, returns nothing, and emits events. -/
def commit {σ : Type} (put : σ → State) (s : State) (r : Reply (σ × List Event)) : Step :=
  match r with
  | .ok (u, ev) => .next ((put u).finish none ev)
  | .fault f => .next (s.raise f)
  | .refuse f => .next (s.refuse f)

/-- A command of the addressed BP instance. -/
def onBp (f : Params → Bp → Reply (Bp × List Event)) (s : State) : Step :=
  atUnit .bp s <| commit (s.setBp s.target.idx) s (f s.params (s.bpAt s.target.idx))

/-- A command of the addressed FC7 instance. -/
def onFc7 (f : Params → Fc7 → Reply (Fc7 × List Event)) (s : State) : Step :=
  atUnit .fc7 s <| commit (s.setFc7 s.target.idx) s (f s.params (s.fc7At s.target.idx))

/-- A command of the addressed FC8 instance. -/
def onFc8 (f : Params → Fc8 → Reply (Fc8 × List Event)) (s : State) : Step :=
  atUnit .fc8 s <| commit (s.setFc8 s.target.idx) s (f s.params (s.fc8At s.target.idx))

/-- A command of the addressed JR instance that returns nothing. -/
def onJr (f : Params → Jr → Reply (Jr × List Event)) (s : State) : Step :=
  atUnit .jr s <| commit (s.setJr s.target.idx) s (f s.params (s.jrAt s.target.idx))

/-! ## Manufacturer-id routing (43_fragment_collectors.md R240, R252, R253) -/

/-- The id part of `ROUTE7` and `ROUTE8`, for a 7-bit id byte: the discriminant, then the two further
bytes of an extended id. -/
def Accum.idByte (a : Accum) (z : BitVec 7) : Accum :=
  if a.mc = 0 then { a with mid := z.setWidth 24 <<< 16, mc := if z = 0 then 1 else 3 }
  else if a.mc = 1 then { a with mid := a.mid ||| (z.setWidth 24 <<< 8), mc := 2 }
  else { a with mid := a.mid ||| z.setWidth 24, mc := 3 }

/-- The append would pass the capacity (R203, R325). -/
def overCap (cap : Option Nat) (len : Nat) : Bool :=
  match cap with
  | some c => c ≤ len
  | none => false

/-- `ROUTE7(b)` with its `APPEND(b)` (R240). -/
def route7 (cap : Option Nat) (b : BitVec 7) (a : Accum) : Reply Accum :=
  if a.mc < 3 then .ok (a.idByte b)
  else if overCap cap a.buf.length then .refuse .bufOverflow
  else .ok { a with buf := a.buf ++ [b.setWidth 8] }

/-- `ROUTE7` of several bytes in order, each masked to 7 bits; the first one refused ends it. -/
def route7All (cap : Option Nat) (l : Bytes) (a : Accum) : Reply Accum :=
  match l with
  | [] => .ok a
  | b :: rest =>
    match route7 cap (b.setWidth 7) a with
    | .ok a' => route7All cap rest a'
    | .fault r => .fault r
    | .refuse r => .refuse r

/-- `ROUTE8(b)` with its `APPEND8(b)`: the id bytes are masked, the data bytes are raw, and a byte beyond
the cap is dropped and marked (R252, R253). -/
def route8 (max : Option Nat) (b : Byte) (x : Accum × Bool) : Accum × Bool :=
  if x.1.mc < 3 then (x.1.idByte (b.setWidth 7), x.2)
  else if overCap max x.1.buf.length then (x.1, true)
  else ({ x.1 with buf := x.1.buf ++ [b] }, x.2)

/-- `ROUTE8` of several bytes in order. -/
def route8All (max : Option Nat) (l : Bytes) (x : Accum × Bool) : Accum × Bool :=
  match l with
  | [] => x
  | b :: rest => route8All max rest (route8 max b x)

/-! ## Taking the next transaction -/

/-- What there is to do next. -/
inductive Fetched where
  /-- The fault record is set: nothing (R322). -/
  | halted (r : FaultReason)
  /-- No command is waiting: the units are idle and keep their state (R337). -/
  | idle
  /-- A reserved command code, refused (R95). -/
  | reserved (s : State)
  /-- A command whose operand fields are not the ones R96 gives it: no transaction of the spec. -/
  | malformed (why : DecodeError)
  /-- An instruction, and the state that runs it: the transaction taken, its target addressed. A packet without a
  row is run as the command that gives it to its unit (R105; log 8). -/
  | run (i : Instr) (s : State)
deriving DecidableEq, Repr

/-- The transaction taken from the inbox and its target addressed (R93). -/
def State.take (s : State) (f : Frame) (rest : List Frame) : State :=
  { s with inbox := rest, target := f.target }

/-- The next transaction, decoded. -/
def fetch (s : State) : Fetched :=
  match s.faultRec with
  | some r => .halted r
  | none =>
    match s.inbox with
    | [] => .idle
    | f :: rest =>
      match decode f.raw with
      | .ok i => .run i (s.take f rest)
      | .error (.reservedCmd _) => .reserved ((s.take f rest).refuse .reservedCmd)
      | .error (.noRow fmt p) => .run (packetCommand fmt p) (s.take f rest)
      | .error (.badOperands c) => .malformed (.badOperands c)

/-- The transaction of an opcode-table word, sent to instance 0 of the unit that runs it. -/
def tableFrame (nbits w : Nat) : Option Frame :=
  (firstDecoded (tableRaws nbits w)).map fun x => ⟨⟨unitOf x.2, 0⟩, x.1⟩

/-- A state in which the host has issued an opcode-table word as the next command; a word without an
instruction is issued as the command code it is. -/
def issueTableWord (s : State) (nbits w : Nat) : State :=
  let f := (tableFrame nbits w).getD ⟨⟨.pk, 0⟩, .cmd (BitVec.ofNat 8 w) []⟩
  { s with inbox := f :: s.inbox }

end Sys2Proof.Machine
end

