-- ==== Sys2Proof/Machine/Collectors.lean ====
section
/-! DEFINITION. FC7 and FC8, the fragment collectors, SX, the payload queries, FR7 and FR8, the fragmenters
(43_fragment_collectors.md), and the fragment rows of the opcode table: a fragment packet presented to its
collector (30_encoding.md R99 to R101; log 8). -/

namespace Sys2Proof.Machine

/-! ## FC7 (R246 to R248) -/

/-- The last part of `FC7.FEED`: an accepted fragment's bytes are routed, and a COMPLETE or END delivers the
payload (R247). -/
def Fc7.collect (cap : Option Nat) (k : FragKind) (l : Bytes) (u : Fc7) : Reply (Fc7 × List Event) :=
  match route7All cap l u.acc with
  | .ok a =>
    if k = .complete ∨ k = .end_ then .ok (⟨.idle, Accum.clear⟩, [.payload a.mid a.buf none])
    else .ok (⟨.cont, a⟩, [])
  | .fault r => .fault r
  | .refuse r => .refuse r

/-- `FC7.FEED P` (R247). -/
def Fc7.feed (cap : Option Nat) (p : Packet) (u : Fc7) : Reply (Fc7 × List Event) :=
  if isFamily p 0x3 then
    match fragKindOf (kindOf p) with
    | none => .ok (u, [])
    | some k =>
      let l := dataBytes p 2 (countOf p).toNat
      if k = .complete ∨ k = .start then Fc7.collect cap k l ⟨.cont, Accum.clear⟩
      else if u.ph = .idle then .ok (u, [])
      else Fc7.collect cap k l u
  else .ok (u, [])

/-- `FC7.FEED` (R247). -/
def execFc7Feed (p : Packet) (s : State) : Step := onFc7 (fun c u => Fc7.feed c.fc7BufCap p u) s

/-- `FC7.RESET` (R248). -/
def execFc7Reset (s : State) : Step := onFc7 (fun _ _ => .ok (Fc7.powerOn, [])) s

/-! ## FC8 (R249 to R254, R256) -/

/-- The last part of `FC8.FEED`: an accepted fragment's bytes are routed under the cap, and a COMPLETE or END
delivers the payload, with the truncation mark when `FC8_TRUNC_FLAG` is set (R251, R253). -/
def Fc8.collect (flag : Bool) (k : FragKind) (l : Bytes) (u : Fc8) : Fc8 × List Event :=
  let x := route8All u.max l (u.acc, u.tr)
  if k = .complete ∨ k = .end_ then
    ({ u with ph := .idle, acc := Accum.clear, tr := false },
      [.payload x.1.mid x.1.buf (if flag then some x.2 else none)])
  else ({ u with ph := .cont, acc := x.1, tr := x.2 }, [])

/-- `FC8.FEED P` (R250, R251). -/
def Fc8.feed (flag : Bool) (p : Packet) (u : Fc8) : Fc8 × List Event :=
  if isFamily p 0x5 then
    match fragKindOf (kindOf p) with
    | none => (u, [])
    | some k =>
      let l := dataBytes p 3 ((countOf p).toNat - 1)
      let sid := getByte p 2
      if k = .complete ∨ k = .start then
        if u.ph = .cont ∧ sid ≠ u.act then (u, [])
        else Fc8.collect flag k l { u with ph := .cont, acc := Accum.clear, act := sid, tr := false }
      else if u.ph = .idle then (u, [])
      else if sid ≠ u.act then (u, [])
      else Fc8.collect flag k l u
  else (u, [])

/-- `FC8.RESET` (R254): every field cleared but the cap. -/
def Fc8.cleared (u : Fc8) : Fc8 := { Fc8.powerOn with max := u.max }

/-- `FC8.FEED` (R251). -/
def execFc8Feed (p : Packet) (s : State) : Step := onFc8 (fun c u => .ok (Fc8.feed c.fc8TruncFlag p u)) s

/-- `FC8.RESET` (R254). -/
def execFc8Reset (s : State) : Step := onFc8 (fun _ u => .ok (u.cleared, [])) s

/-- `FC8.CFG` (R256). -/
def execFc8Cfg (max : Option Nat) (s : State) : Step := onFc8 (fun _ u => .ok ({ u with max := max }, [])) s

/-! ## SX (R243 to R245) -/

/-- `SX.IS7` (R243): the id is not read. -/
def execSxIs7 (_mid : BitVec 24) (l : Bytes) (s : State) : Step := answer .sx (.ok (.bit (is7Bit l))) s

/-- `SX.IS8` (R244): the id is not read. -/
def execSxIs8 (_mid : BitVec 24) (l : Bytes) (s : State) : Step := answer .sx (.ok (.bit (is8Bit l))) s

/-- `SX.TOTAL` (R245). -/
def execSxTotal (mid : BitVec 24) (l : Bytes) (s : State) : Step := answer .sx (.ok (.nat (totalSize mid l))) s

/-! ## FR7 and FR8 (R255, R257) -/

/-- A list split into pieces of `k` bytes, the last one shorter; the first argument bounds the pieces. -/
def piecesFrom : Nat → Nat → Bytes → List Bytes
  | 0, _, _ => []
  | fuel + 1, k, l => if l = [] then [] else l.take k :: piecesFrom fuel k (l.drop k)

/-- A list split into pieces of `k` bytes, `k > 0`, the last one shorter. -/
def pieces (k : Nat) (l : Bytes) : List Bytes := piecesFrom l.length k l

/-- The pieces after the first: CONT, the last one END. -/
def laterFragments (mk : FragKind → Bytes → Packet) : List Bytes → List Packet
  | [] => []
  | [c] => [mk .end_ c]
  | c :: rest => mk .cont c :: laterFragments mk rest

/-- The fragments of `B`, `k` bytes in each: one COMPLETE when it fits, else START, CONT, ..., END (R255, R257). -/
def fragments (mk : FragKind → Bytes → Packet) (k : Nat) (B : Bytes) : List Packet :=
  if B.length ≤ k then [mk .complete B]
  else
    match pieces k B with
    | [] => []
    | c :: rest => mk .start c :: laterFragments mk rest

/-- The fragments of `FR7.FRAG` for an accepted id: the id bytes, then the data masked to 7 bits (R255). -/
def fr7Fragments (mid : BitVec 24) (l : Bytes) (g : BitVec 4) : List Packet :=
  fragments (t3 g) 6 (idBytes mid ++ l.map fun x => (x.setWidth 7).setWidth 8)

/-- The fragments of `FR8.FRAG` for an accepted id: the id bytes, then the raw data (R257). -/
def fr8Fragments (mid : BitVec 24) (l : Bytes) (g : BitVec 4) (sid : Byte) : List Packet :=
  fragments (fun k c => t5 g k sid c) 13 (idBytes mid ++ l)

/-- `FR7.FRAG` (R255). -/
def execFr7Frag (mid : BitVec 24) (l : Bytes) (g : BitVec 4) (s : State) : Step :=
  answer .sx (if canonicalId mid then .ok (.packets (fr7Fragments mid l g)) else .fault .noncanonicalId) s

/-- `FR8.FRAG` (R257). -/
def execFr8Frag (mid : BitVec 24) (l : Bytes) (g : BitVec 4) (sid : Byte) (s : State) : Step :=
  answer .sx (if canonicalId mid then .ok (.packets (fr8Fragments mid l g sid)) else .fault .noncanonicalId) s

/-! ## A fragment presented to its collector (R99 to R101): `FC7.FEED` or `FC8.FEED` of that packet -/

/-- A T3 packet presented to the addressed FC7. -/
def presentT3 (g : BitVec 4) (k : FragKind) (n : BitVec 4) (data : BitVec 48) (s : State) : Step :=
  onFc7 (fun c u => Fc7.feed c.fc7BufCap (t3Packet g k n data) u) s

/-- A T5 packet presented to the addressed FC8. -/
def presentT5 (g : BitVec 4) (k : FragKind) (n : BitVec 4) (sid : Byte) (data : BitVec 104) (s : State) : Step :=
  onFc8 (fun c u => .ok (Fc8.feed c.fc8TruncFlag (t5Packet g k n sid data) u)) s

/-- `T3.COMPLETE` (R99, R101). -/
def execT3Complete (g n : BitVec 4) (data : BitVec 48) (s : State) : Step := presentT3 g .complete n data s

/-- `T5.COMPLETE` (R100, R101). -/
def execT5Complete (g n : BitVec 4) (sid : Byte) (data : BitVec 104) (s : State) : Step :=
  presentT5 g .complete n sid data s

/-- `T3.START` (R99, R101). -/
def execT3Start (g n : BitVec 4) (data : BitVec 48) (s : State) : Step := presentT3 g .start n data s

/-- `T5.START` (R100, R101). -/
def execT5Start (g n : BitVec 4) (sid : Byte) (data : BitVec 104) (s : State) : Step :=
  presentT5 g .start n sid data s

/-- `T3.CONT` (R99, R101). -/
def execT3Cont (g n : BitVec 4) (data : BitVec 48) (s : State) : Step := presentT3 g .cont n data s

/-- `T5.CONT` (R100, R101). -/
def execT5Cont (g n : BitVec 4) (sid : Byte) (data : BitVec 104) (s : State) : Step :=
  presentT5 g .cont n sid data s

/-- `T3.END` (R99, R101). -/
def execT3End (g n : BitVec 4) (data : BitVec 48) (s : State) : Step := presentT3 g .end_ n data s

/-- `T5.END` (R100, R101). -/
def execT5End (g n : BitVec 4) (sid : Byte) (data : BitVec 104) (s : State) : Step :=
  presentT5 g .end_ n sid data s

end Sys2Proof.Machine
end

