-- ==== Sys2Proof/Machine/Jitter.lean ====
section
/-! DEFINITION. JR, the jitter-reduction clock follower (44_jitter_clock_follower.md). -/

namespace Sys2Proof.Machine

/-- `DELTA(a, b)`, the wraparound-corrected delta (R291). -/
def delta (a b : BitVec 16) : Nat := (a - b).toNat

/-- The value fits `JR_TIME_W` bits (R290). -/
def fitsTime (c : Params) (x : Nat) : Bool :=
  match c.jrTimeW with
  | some w => x < 2 ^ w
  | none => true

/-- `SECUPDATE()` (R296). -/
def Jr.secUpdate (c : Params) (u : Jr) : Jr :=
  { u with sec := max u.sec (u.jit * c.jrMarginNum / c.jrMarginDen) }

/-- The tracked jitter after a sample (R295). -/
def jitterAfter (jit : Nat) (s : Int) : Nat :=
  if s < 0 ∧ (jit : Int) < -s then jit + (-s).toNat
  else if 0 < s ∧ (jit : Int) < s then s.toNat
  else jit

/-- `JUPDATE(s)` (R295). -/
def Jr.jitterUpdate (c : Params) (s : Int) (u : Jr) : Jr :=
  let u1 := { u with jit := jitterAfter u.jit s }
  if u.jit < u1.jit then Jr.secUpdate c u1 else u1

/-- The time of a timestamp against the reference: `ref + JR_TICK * DELTA(ts, lts)` (R292, R293). -/
def Jr.timeOf (c : Params) (ts : BitVec 16) (u : Jr) : Nat := u.ref + c.jrTick * delta ts u.lts

/-- `JR.SYNC`'s state after the first call, before the width is looked at (R292). -/
def Jr.follow (c : Params) (t : Nat) (ts : BitVec 16) (u : Jr) : Jr :=
  let e := Jr.timeOf c ts u
  let s : Int := (t : Int) - (e : Int)
  Jr.jitterUpdate c s { u with ref := if s < 0 then t else e, wm := max u.wm t, lts := ts }

/-- `JR.SYNC t, ts` (R292). In a finite realisation it is refused when the arrival time, the expected
time or a value it would write does not fit (R290; log 12). -/
def Jr.sync (c : Params) (t : Nat) (ts : BitVec 16) (u : Jr) : Reply (Jr × List Event) :=
  if !fitsTime c t then .refuse .timeOverflow
  else if !u.init then .ok ({ u with init := true, ref := t, lts := ts }, [])
  else
    let u1 := Jr.follow c t ts u
    if fitsTime c (Jr.timeOf c ts u) && fitsTime c u1.wm && fitsTime c u1.jit && fitsTime c u1.sec then .ok (u1, [])
    else .refuse .timeOverflow

/-- `JR.SCHED`'s watermark after a sync: raised to the candidate (R293). -/
def Jr.schedule (c : Params) (ts : BitVec 16) (u : Jr) : Jr := { u with wm := max u.wm (Jr.timeOf c ts u) }

/-- A free draw of the time domain (R293, 93_implementation_defined.md I9; log 11). -/
def freeTime (c : Params) (n : Nat) : Nat :=
  match c.jrTimeW with
  | some w => Config.freeTime n % 2 ^ w
  | none => Config.freeTime n

/-- `JR.SYNC` (R292). -/
def execJrSync (t : Nat) (ts : BitVec 16) (s : State) : Step := onJr (fun c u => Jr.sync c t ts u) s

/-- `JR.SCHED` (R293): `t` is not read; before the first sync the result is a free draw and the instance
is unchanged; in a finite realisation it is refused when the candidate or the result does not fit. -/
def execJrSched (_t : Nat) (ts : BitVec 16) (s : State) : Step :=
  atUnit .jr s <|
    let u := s.jrAt s.target.idx
    if !u.init then .next (s.drawn.finish (some (.time (freeTime s.params s.draws))) [])
    else
      let u1 := Jr.schedule s.params ts u
      if fitsTime s.params (Jr.timeOf s.params ts u) && fitsTime s.params (u1.wm + u1.sec) then
        .next ((s.setJr s.target.idx u1).finish (some (.time (u1.wm + u1.sec))) [])
      else .next (s.refuse .timeOverflow)

/-- `JR.RESET` (R294). -/
def execJrReset (s : State) : Step := onJr (fun c _ => .ok (Jr.powerOn c, [])) s

end Sys2Proof.Machine
end

