-- ==== Sys2Proof/Machine/Packets.lean ====
section
/-! DEFINITION. PK, the packet type decoder and field access (40_packet.md), and the packet rows of the opcode
table: a packet presented to the type decoder (30_encoding.md R91, R92, R106; log 8). Every command is a
pure function of its operands. -/

namespace Sys2Proof.Machine

/-! ## Construction and word 0 (R130 to R137) -/

/-- `PK.MAKE` (R137). -/
def execPkMake (n : BitVec 3) (a0 a1 a2 a3 : Word) (s : State) : Step :=
  answer .pk
    (if n.toNat < 1 ∨ 4 < n.toNat then .fault .badWordCount else .ok (.packet (packetOf n.toNat a0 a1 a2 a3))) s

/-- The word count as the 3-bit result of R96 (R130). -/
def wordCountOf (p : Packet) : BitVec 3 := BitVec.ofNat 3 (wordsOf (tagOf p))

/-- `PK.SIZE` (R130). -/
def execPkSize (p : Packet) (s : State) : Step := answer .pk (.ok (.bits3 (wordCountOf p))) s

/-- `PK.TYPE` (R131). -/
def execPkType (p : Packet) (s : State) : Step := answer .pk (.ok (.bits4 (tagOf p))) s

/-- `PK.GROUP` (R132). -/
def execPkGroup (p : Packet) (s : State) : Step :=
  answer .pk (if tagOf p = 0 then .fault .grouplessUtility else .ok (.bits4 (groupOf p))) s

/-- `PK.STATUS` (R133). -/
def execPkStatus (p : Packet) (s : State) : Step := answer .pk (.ok (.bits8 (statusOf p))) s

/-! ## Byte, composite and nibble access (R134, R135, R138 to R146) -/

/-- `PK.GETB` (R134). -/
def execPkGetb (p : Packet) (i : BitVec 4) (s : State) : Step := answer .pk (.ok (.bits8 (getByte p i.toNat))) s

/-- `PK.SETB` (R135). -/
def execPkSetb (p : Packet) (i : BitVec 4) (v : Byte) (s : State) : Step :=
  answer .pk (.ok (.packet (setByte p i.toNat v))) s

/-- `PK.GET7` (R138). -/
def execPkGet7 (p : Packet) (i : BitVec 4) (s : State) : Step := answer .pk (.ok (.bits7 (get7 p i.toNat))) s

/-- `PK.SET7` (R139): bit 7 of the operand is dropped. -/
def execPkSet7 (p : Packet) (i : BitVec 4) (v : Byte) (s : State) : Step :=
  answer .pk (.ok (.packet (set7 p i.toNat (v.setWidth 7)))) s

/-- `PK.GET14` (R140). -/
def execPkGet14 (p : Packet) (i : BitVec 4) (s : State) : Step :=
  answer .pk (if 14 < i.toNat then .fault .fieldRange else .ok (.bits14 (get14 p i.toNat))) s

/-- `PK.SET14` (R141). -/
def execPkSet14 (p : Packet) (i : BitVec 4) (v : BitVec 14) (s : State) : Step :=
  answer .pk (if 14 < i.toNat then .fault .fieldRange else .ok (.packet (set14 p i.toNat v))) s

/-- `PK.GET28` (R143). -/
def execPkGet28 (p : Packet) (i : BitVec 4) (s : State) : Step :=
  answer .pk (if 12 < i.toNat then .fault .fieldRange else .ok (.bits28 (get28 p i.toNat))) s

/-- `PK.SET28` (R144). -/
def execPkSet28 (p : Packet) (i : BitVec 4) (v : BitVec 28) (s : State) : Step :=
  answer .pk (if 12 < i.toNat then .fault .fieldRange else .ok (.packet (set28 p i.toNat v))) s

/-- `PK.GETN` (R145). -/
def execPkGetn (p : Packet) (k : BitVec 5) (s : State) : Step := answer .pk (.ok (.bits4 (getNibble p k.toNat))) s

/-- `PK.SETN` (R146). -/
def execPkSetn (p : Packet) (k : BitVec 5) (v : BitVec 4) (s : State) : Step :=
  answer .pk (.ok (.packet (setNibble p k.toNat v))) s

/-- `PK.ISFAM` (R147, R149). -/
def execPkIsfam (p : Packet) (f : BitVec 4) (s : State) : Step :=
  answer .pk (if isFamilyCode f then .ok (.bit (isFamily p f)) else .refuse .noSuchFamily) s

/-! ## A packet presented to the type decoder (R92, R106): its word count -/

/-- The word count of a packet whose word 0 has these fields. -/
def typeDecode (tag g : BitVec 4) (status : Byte) (data : BitVec 16) (w1 w2 w3 : Word) (s : State) : Step :=
  answer .pk (.ok (.bits3 (wordCountOf ⟨word0 tag g status data, w1, w2, w3⟩))) s

/-- `TAG.UTILITY` (R92): a packet of one word. -/
def execTagUtility (g : BitVec 4) (status : Byte) (data : BitVec 16) (s : State) : Step :=
  typeDecode 0x0 g status data 0 0 0 s

/-- `TAG.SYSTEM` (R92): a packet of one word. -/
def execTagSystem (g : BitVec 4) (status : Byte) (data : BitVec 16) (s : State) : Step :=
  typeDecode 0x1 g status data 0 0 0 s

/-- `TAG.CV1` (R92): a packet of one word. -/
def execTagCv1 (g : BitVec 4) (status : Byte) (data : BitVec 16) (s : State) : Step :=
  typeDecode 0x2 g status data 0 0 0 s

/-- `TAG.SYSEX7` (R92): a packet of two words. -/
def execTagSysex7 (g : BitVec 4) (status : Byte) (data : BitVec 16) (w1 : Word) (s : State) : Step :=
  typeDecode 0x3 g status data w1 0 0 s

/-- `TAG.CV2` (R92): a packet of two words. -/
def execTagCv2 (g : BitVec 4) (status : Byte) (data : BitVec 16) (w1 : Word) (s : State) : Step :=
  typeDecode 0x4 g status data w1 0 0 s

/-- `TAG.SYSEX8` (R92): a packet of four words. -/
def execTagSysex8 (g : BitVec 4) (status : Byte) (data : BitVec 16) (w1 w2 w3 : Word) (s : State) : Step :=
  typeDecode 0x5 g status data w1 w2 w3 s

/-- `TAG.FLEX` (R92): a packet of four words. -/
def execTagFlex (g : BitVec 4) (status : Byte) (data : BitVec 16) (w1 w2 w3 : Word) (s : State) : Step :=
  typeDecode 0xD g status data w1 w2 w3 s

/-- `TAG.STREAM` (R92): a packet of four words. -/
def execTagStream (g : BitVec 4) (status : Byte) (data : BitVec 16) (w1 w2 w3 : Word) (s : State) : Step :=
  typeDecode 0xF g status data w1 w2 w3 s

/-- `TAG.RESERVED_6` (R92): a packet of one word. -/
def execTagReserved6 (g : BitVec 4) (status : Byte) (data : BitVec 16) (s : State) : Step :=
  typeDecode 0x6 g status data 0 0 0 s

/-- `TAG.RESERVED_7` (R92): a packet of one word. -/
def execTagReserved7 (g : BitVec 4) (status : Byte) (data : BitVec 16) (s : State) : Step :=
  typeDecode 0x7 g status data 0 0 0 s

/-- `TAG.RESERVED_8` (R92): a packet of one word. -/
def execTagReserved8 (g : BitVec 4) (status : Byte) (data : BitVec 16) (s : State) : Step :=
  typeDecode 0x8 g status data 0 0 0 s

/-- `TAG.RESERVED_9` (R92): a packet of one word. -/
def execTagReserved9 (g : BitVec 4) (status : Byte) (data : BitVec 16) (s : State) : Step :=
  typeDecode 0x9 g status data 0 0 0 s

/-- `TAG.RESERVED_A` (R92): a packet of one word. -/
def execTagReservedA (g : BitVec 4) (status : Byte) (data : BitVec 16) (s : State) : Step :=
  typeDecode 0xA g status data 0 0 0 s

/-- `TAG.RESERVED_B` (R92): a packet of one word. -/
def execTagReservedB (g : BitVec 4) (status : Byte) (data : BitVec 16) (s : State) : Step :=
  typeDecode 0xB g status data 0 0 0 s

/-- `TAG.RESERVED_C` (R92): a packet of one word. -/
def execTagReservedC (g : BitVec 4) (status : Byte) (data : BitVec 16) (s : State) : Step :=
  typeDecode 0xC g status data 0 0 0 s

/-- `TAG.RESERVED_E` (R92): a packet of one word. -/
def execTagReservedE (g : BitVec 4) (status : Byte) (data : BitVec 16) (s : State) : Step :=
  typeDecode 0xE g status data 0 0 0 s

end Sys2Proof.Machine
end

