-- ==== Sys2Proof/Machine/Parser.lean ====
section
/-! DEFINITION. BP, the legacy byte-stream parser (42_byte_stream_parser.md), and the byte rows of the opcode
table: a legacy byte of each class presented to it (30_encoding.md R103; log 8). -/

namespace Sys2Proof.Machine

/-- `emit(e)`: nothing is appended while `cfg_emit` is 0 (10_state.md R40). -/
def Bp.emit (u : Bp) (e : Event) : List Event := if u.cfgEmit then [e] else []

/-- The pending message cleared: `st`, `need`, `cur` and `d`. -/
def Bp.dropMessage (u : Bp) : Bp := { u with st := none, need := 0, cur := 0, d0 := 0, d1 := 0 }

/-- A message of status `b` begun. -/
def Bp.beginMessage (u : Bp) (b : Byte) : Bp := { u with st := some b, need := dataCount b, cur := 0, d0 := 0, d1 := 0 }

/-- The system-exclusive fields at their reset values. -/
def Bp.dropSysex (u : Bp) : Bp := { u with sx := false, fb := [], ffirst := true, acc := Accum.clear }

/-- `REALTIME(b)` (R193): the parser's state is neither read nor written. -/
def Bp.realtime (u : Bp) (b : Byte) : Bp × List Event :=
  if b = 0xF9 ∨ b = 0xFD then (u, []) else (u, u.emit (.packet (t1 u.cfgGroup b 0 0)))

/-- `COMPLETE()` (R201). -/
def Bp.complete (u : Bp) (s : Byte) : Bp × List Event :=
  let d2 := if dataCount s = 2 then u.d1 else 0
  let p := if s.toNat ≤ 0xEF then t2 u.cfgGroup s u.d0 d2 else t1 u.cfgGroup s u.d0 d2
  (u.dropMessage, u.emit (.packet p))

/-- `d[cur] <- b; cur <- cur + 1; need <- need - 1` (R195). `d` has two slots and the invariant of 10_state.md
R41 keeps `cur` below 2 here (log 18). -/
def Bp.store (u : Bp) (b : Byte) : Bp :=
  { u with
    d0 := if u.cur = 0 then b else u.d0
    d1 := if u.cur = 1 then b else u.d1
    cur := u.cur + 1
    need := u.need - 1 }

/-- The last part of `DATA(b)`: the byte stored into the pending message of status `s`, which completes when no
byte is still expected (R195, R201). -/
def Bp.dataInto (u : Bp) (s b : Byte) : Bp × List Event :=
  let u1 := u.store b
  if u1.need = 0 then u1.complete s else (u1, [])

/-- `DATA(b)` (R195): a pending message takes the byte, else running status re-arms, else it is ignored. -/
def Bp.data (u : Bp) (b : Byte) : Bp × List Event :=
  match u.st with
  | some s => u.dataInto s b
  | none =>
    match u.rs with
    | some s => (u.beginMessage s).dataInto s b
    | none => (u, [])

/-- `CV_STATUS(b)` (R196). -/
def Bp.cvStatus (u : Bp) (b : Byte) : Bp := { u.beginMessage b with rs := some b }

/-- `SX_START()` (R197). -/
def Bp.sxStart (u : Bp) : Bp := { u.dropMessage.dropSysex with rs := none, sx := true }

/-- `SC_STATUS(b)` (R198). -/
def Bp.scStatus (u : Bp) (b : Byte) : Bp := { u.beginMessage b with rs := none }

/-- `TUNE()` (R199). -/
def Bp.tune (u : Bp) : Bp × List Event :=
  ({ u.dropMessage with rs := none }, u.emit (.packet (t1 u.cfgGroup 0xF6 0 0)))

/-- `UNDEF_STATUS()` (R200). -/
def Bp.undefStatus (u : Bp) : Bp := { u.dropMessage with rs := none }

/-- `SX_APPEND(b)` (R202 in PACKETS mode, R203 in PAYLOAD mode). -/
def Bp.sxAppend (cap : Option Nat) (u : Bp) (b : Byte) : Reply (Bp × List Event) :=
  match u.cfgMode with
  | .packets =>
    if u.fb.length = 6 then
      .ok ({ u with ffirst := false, fb := [b] },
        u.emit (.packet (t3 u.cfgGroup (if u.ffirst then .start else .cont) u.fb)))
    else .ok ({ u with fb := u.fb ++ [b] }, [])
  | .payload =>
    match route7 cap (b.setWidth 7) u.acc with
    | .ok a => .ok ({ u with acc := a }, [])
    | .fault r => .fault r
    | .refuse r => .refuse r

/-- `SX_FINISH()` (R204). -/
def Bp.sxFinish (u : Bp) : Bp × List Event :=
  (u.dropSysex,
    match u.cfgMode with
    | .packets => u.emit (.packet (t3 u.cfgGroup (if u.ffirst then .complete else .end_) u.fb))
    | .payload => u.emit (.payload u.acc.mid u.acc.buf none))

/-- The second half of `BP.FEED`'s pseudocode: a byte below 0xF8 outside system exclusive (R192). -/
def Bp.plain (u : Bp) (b : Byte) : Bp × List Event :=
  if b.toNat < 0x80 then u.data b
  else if b.toNat ≤ 0xEF then (u.cvStatus b, [])
  else if b = 0xF0 then (u.sxStart, [])
  else if b = 0xF1 ∨ b = 0xF2 ∨ b = 0xF3 then (u.scStatus b, [])
  else if b = 0xF6 then u.tune
  else (u.undefStatus, [])

/-- `BP.FEED b` (R192). Real-time bytes come first; during system exclusive a byte that is neither data nor
0xF7 cancels the payload (`SX_CANCEL`, R205) and is then interpreted as a plain byte (R194). -/
def Bp.feed (cap : Option Nat) (b : Byte) (u : Bp) : Reply (Bp × List Event) :=
  if 0xF8 ≤ b.toNat then .ok (u.realtime b)
  else if u.sx then
    if b.toNat < 0x80 then u.sxAppend cap b
    else if b = 0xF7 then .ok u.sxFinish
    else .ok (u.dropSysex.plain b)
  else .ok (u.plain b)

/-- The mode a `cfg_mode` bit selects (10_state.md R38). -/
def modeOf (m : BitVec 1) : SysexMode := if m = 0 then .packets else .payload

/-- `BP.CFG g, e, m` (R206). -/
def Bp.configure (g : BitVec 4) (e m : BitVec 1) (u : Bp) : Reply (Bp × List Event) :=
  if u.sx ∧ modeOf m ≠ u.cfgMode then .refuse .modeChangeInSysex
  else .ok ({ u with cfgGroup := g, cfgEmit := e = 1, cfgMode := modeOf m }, [])

/-- `BP.RESET` (R207): every pending field cleared, running status included; the configuration kept. -/
def Bp.cleared (u : Bp) : Bp := { u.dropMessage.dropSysex with rs := none }

/-! ## The commands -/

/-- `BP.FEED` (R192). -/
def execBpFeed (b : Byte) (s : State) : Step := onBp (fun c u => Bp.feed c.bpBufCap b u) s

/-- `BP.RESET` (R207). -/
def execBpReset (s : State) : Step := onBp (fun _ u => .ok (u.cleared, [])) s

/-- `BP.CFG` (R206). -/
def execBpCfg (g : BitVec 4) (e m : BitVec 1) (s : State) : Step := onBp (fun _ u => u.configure g e m) s

/-! ## A legacy byte presented to the parser, by its class (R103): `BP.FEED` of that byte -/

/-- The byte `b` presented to the parser. -/
def presentByte (b : Byte) (s : State) : Step := onBp (fun c u => Bp.feed c.bpBufCap b u) s

/-- `BYTE.DATA` (R195). -/
def execByteData (v : BitVec 7) (s : State) : Step := presentByte (0b0#1 ++ v) s

/-- `BYTE.CV2_80_BF` (R196). -/
def execByteCv80 (v : BitVec 6) (s : State) : Step := presentByte (0b10#2 ++ v) s

/-- `BYTE.CV1_C0_DF` (R196). -/
def execByteCvC0 (v : BitVec 5) (s : State) : Step := presentByte (0b110#3 ++ v) s

/-- `BYTE.CV2_E0_EF` (R196). -/
def execByteCvE0 (v : BitVec 4) (s : State) : Step := presentByte (0b1110#4 ++ v) s

/-- `BYTE.SX_START_F0` (R197). -/
def execByteSxStart (s : State) : Step := presentByte 0xF0 s

/-- `BYTE.SC_F1` (R198). -/
def execByteScF1 (s : State) : Step := presentByte 0xF1 s

/-- `BYTE.SC_F2` (R198). -/
def execByteScF2 (s : State) : Step := presentByte 0xF2 s

/-- `BYTE.SC_F3` (R198). -/
def execByteScF3 (s : State) : Step := presentByte 0xF3 s

/-- `BYTE.UNDEF_F4` (R200). -/
def execByteUndefF4 (s : State) : Step := presentByte 0xF4 s

/-- `BYTE.UNDEF_F5` (R200). -/
def execByteUndefF5 (s : State) : Step := presentByte 0xF5 s

/-- `BYTE.TUNE_F6` (R199). -/
def execByteTune (s : State) : Step := presentByte 0xF6 s

/-- `BYTE.SX_END_F7` (R204, R200). -/
def execByteSxEnd (s : State) : Step := presentByte 0xF7 s

/-- `BYTE.RT_F8` (R193). -/
def execByteRtF8 (s : State) : Step := presentByte 0xF8 s

/-- `BYTE.RT_RES_F9` (R193). -/
def execByteRtResF9 (s : State) : Step := presentByte 0xF9 s

/-- `BYTE.RT_FA` (R193). -/
def execByteRtFA (s : State) : Step := presentByte 0xFA s

/-- `BYTE.RT_FB` (R193). -/
def execByteRtFB (s : State) : Step := presentByte 0xFB s

/-- `BYTE.RT_FC` (R193). -/
def execByteRtFC (s : State) : Step := presentByte 0xFC s

/-- `BYTE.RT_RES_FD` (R193). -/
def execByteRtResFD (s : State) : Step := presentByte 0xFD s

/-- `BYTE.RT_FE` (R193). -/
def execByteRtFE (s : State) : Step := presentByte 0xFE s

/-- `BYTE.RT_FF` (R193). -/
def execByteRtFF (s : State) : Step := presentByte 0xFF s

end Sys2Proof.Machine
end

