-- ==== Sys2Proof/Machine/Scalers.lean ====
section
/-! DEFINITION. SC, the value scalers (41_scalers.md). -/

namespace Sys2Proof.Machine

/-- The loop of `UP`: the repeat value is merged in and shifted down until nothing is left of it. The
first argument bounds the turns; every turn shifts by at least one bit, so the width of the result is
enough. -/
def upLoop : Nat → Nat → Nat → Nat → Nat
  | 0, r, _, _ => r
  | fuel + 1, r, rv, rb => if rv = 0 then r else upLoop fuel (r ||| rv) (rv >>> rb) rb

/-- `UP(v, S, D)` (R170), for a natural `v < 2^S`. -/
def up (v S D : Nat) : Nat :=
  let sh := D - S
  let r := v <<< sh
  if v ≤ 2 ^ (S - 1) then r
  else
    let rb := S - 1
    let rv := v % 2 ^ (S - 1)
    let rv := if rb < sh then rv <<< (sh - rb) else rv >>> (rb - sh)
    upLoop D r rv rb

/-- `DN(w, D, S)` (R171). -/
def dn (w D S : Nat) : Nat := w >>> (D - S)

/-- `SC.UP7_16` (R172). -/
def execScUp7To16 (v : BitVec 7) (s : State) : Step :=
  answer .sc (.ok (.bits16 (BitVec.ofNat 16 (up v.toNat 7 16)))) s

/-- `SC.UP7_32` (R173). -/
def execScUp7To32 (v : BitVec 7) (s : State) : Step :=
  answer .sc (.ok (.bits32 (BitVec.ofNat 32 (up v.toNat 7 32)))) s

/-- `SC.UP14_16` (R174). -/
def execScUp14To16 (v : BitVec 14) (s : State) : Step :=
  answer .sc (.ok (.bits16 (BitVec.ofNat 16 (up v.toNat 14 16)))) s

/-- `SC.UP14_32` (R175). -/
def execScUp14To32 (v : BitVec 14) (s : State) : Step :=
  answer .sc (.ok (.bits32 (BitVec.ofNat 32 (up v.toNat 14 32)))) s

/-- `SC.DN16_7` (R176). -/
def execScDn16To7 (v : BitVec 16) (s : State) : Step :=
  answer .sc (.ok (.bits7 (BitVec.ofNat 7 (dn v.toNat 16 7)))) s

/-- `SC.DN32_7` (R177). -/
def execScDn32To7 (v : BitVec 32) (s : State) : Step :=
  answer .sc (.ok (.bits7 (BitVec.ofNat 7 (dn v.toNat 32 7)))) s

/-- `SC.DN16_14` (R178). -/
def execScDn16To14 (v : BitVec 16) (s : State) : Step :=
  answer .sc (.ok (.bits14 (BitVec.ofNat 14 (dn v.toNat 16 14)))) s

/-- `SC.DN32_14` (R179). -/
def execScDn32To14 (v : BitVec 32) (s : State) : Step :=
  answer .sc (.ok (.bits14 (BitVec.ofNat 14 (dn v.toNat 32 14)))) s

end Sys2Proof.Machine
end

