-- ==== Sys2Proof/Machine/Dispatch.lean ====
section
/-! DEFINITION. One arm per instruction. -/

namespace Sys2Proof.Machine

def exec (i : Instr) (s : State) : Host.Outcome State Fault Refusal :=
  match i with
  | .pkMake n a0 a1 a2 a3 => Sys2Proof.Machine.execPkMake n a0 a1 a2 a3 s
  | .pkSize p => Sys2Proof.Machine.execPkSize p s
  | .pkType p => Sys2Proof.Machine.execPkType p s
  | .pkGroup p => Sys2Proof.Machine.execPkGroup p s
  | .pkStatus p => Sys2Proof.Machine.execPkStatus p s
  | .pkGetb p k => Sys2Proof.Machine.execPkGetb p k s
  | .pkSetb p k v => Sys2Proof.Machine.execPkSetb p k v s
  | .pkGet7 p k => Sys2Proof.Machine.execPkGet7 p k s
  | .pkSet7 p k v => Sys2Proof.Machine.execPkSet7 p k v s
  | .pkGet14 p k => Sys2Proof.Machine.execPkGet14 p k s
  | .pkSet14 p k v => Sys2Proof.Machine.execPkSet14 p k v s
  | .pkGet28 p k => Sys2Proof.Machine.execPkGet28 p k s
  | .pkSet28 p k v => Sys2Proof.Machine.execPkSet28 p k v s
  | .pkGetn p k => Sys2Proof.Machine.execPkGetn p k s
  | .pkSetn p k v => Sys2Proof.Machine.execPkSetn p k v s
  | .pkIsfam p f => Sys2Proof.Machine.execPkIsfam p f s
  | .scUp7To16 v => Sys2Proof.Machine.execScUp7To16 v s
  | .scUp7To32 v => Sys2Proof.Machine.execScUp7To32 v s
  | .scUp14To16 v => Sys2Proof.Machine.execScUp14To16 v s
  | .scUp14To32 v => Sys2Proof.Machine.execScUp14To32 v s
  | .scDn16To7 v => Sys2Proof.Machine.execScDn16To7 v s
  | .scDn32To7 v => Sys2Proof.Machine.execScDn32To7 v s
  | .scDn16To14 v => Sys2Proof.Machine.execScDn16To14 v s
  | .scDn32To14 v => Sys2Proof.Machine.execScDn32To14 v s
  | .bpFeed b => Sys2Proof.Machine.execBpFeed b s
  | .bpReset => Sys2Proof.Machine.execBpReset s
  | .bpCfg g e m => Sys2Proof.Machine.execBpCfg g e m s
  | .fc7Feed p => Sys2Proof.Machine.execFc7Feed p s
  | .fc7Reset => Sys2Proof.Machine.execFc7Reset s
  | .fc8Feed p => Sys2Proof.Machine.execFc8Feed p s
  | .fc8Reset => Sys2Proof.Machine.execFc8Reset s
  | .fc8Cfg max => Sys2Proof.Machine.execFc8Cfg max s
  | .sxIs7 mid l => Sys2Proof.Machine.execSxIs7 mid l s
  | .sxIs8 mid l => Sys2Proof.Machine.execSxIs8 mid l s
  | .sxTotal mid l => Sys2Proof.Machine.execSxTotal mid l s
  | .fr7Frag mid l g => Sys2Proof.Machine.execFr7Frag mid l g s
  | .fr8Frag mid l g sid => Sys2Proof.Machine.execFr8Frag mid l g sid s
  | .jrSync t ts => Sys2Proof.Machine.execJrSync t ts s
  | .jrSched t ts => Sys2Proof.Machine.execJrSched t ts s
  | .jrReset => Sys2Proof.Machine.execJrReset s
  | .tagUtility g status data => Sys2Proof.Machine.execTagUtility g status data s
  | .tagSystem g status data => Sys2Proof.Machine.execTagSystem g status data s
  | .tagCv1 g status data => Sys2Proof.Machine.execTagCv1 g status data s
  | .tagSysex7 g status data w1 => Sys2Proof.Machine.execTagSysex7 g status data w1 s
  | .tagCv2 g status data w1 => Sys2Proof.Machine.execTagCv2 g status data w1 s
  | .tagSysex8 g status data w1 w2 w3 => Sys2Proof.Machine.execTagSysex8 g status data w1 w2 w3 s
  | .tagFlex g status data w1 w2 w3 => Sys2Proof.Machine.execTagFlex g status data w1 w2 w3 s
  | .tagStream g status data w1 w2 w3 => Sys2Proof.Machine.execTagStream g status data w1 w2 w3 s
  | .tagReserved6 g status data => Sys2Proof.Machine.execTagReserved6 g status data s
  | .tagReserved7 g status data => Sys2Proof.Machine.execTagReserved7 g status data s
  | .tagReserved8 g status data => Sys2Proof.Machine.execTagReserved8 g status data s
  | .tagReserved9 g status data => Sys2Proof.Machine.execTagReserved9 g status data s
  | .tagReservedA g status data => Sys2Proof.Machine.execTagReservedA g status data s
  | .tagReservedB g status data => Sys2Proof.Machine.execTagReservedB g status data s
  | .tagReservedC g status data => Sys2Proof.Machine.execTagReservedC g status data s
  | .tagReservedE g status data => Sys2Proof.Machine.execTagReservedE g status data s
  | .t3Complete g n data => Sys2Proof.Machine.execT3Complete g n data s
  | .t5Complete g n sid data => Sys2Proof.Machine.execT5Complete g n sid data s
  | .t3Start g n data => Sys2Proof.Machine.execT3Start g n data s
  | .t5Start g n sid data => Sys2Proof.Machine.execT5Start g n sid data s
  | .t3Cont g n data => Sys2Proof.Machine.execT3Cont g n data s
  | .t5Cont g n sid data => Sys2Proof.Machine.execT5Cont g n sid data s
  | .t3End g n data => Sys2Proof.Machine.execT3End g n data s
  | .t5End g n sid data => Sys2Proof.Machine.execT5End g n sid data s
  | .byteData v => Sys2Proof.Machine.execByteData v s
  | .byteCv80 v => Sys2Proof.Machine.execByteCv80 v s
  | .byteCvC0 v => Sys2Proof.Machine.execByteCvC0 v s
  | .byteCvE0 v => Sys2Proof.Machine.execByteCvE0 v s
  | .byteSxStart => Sys2Proof.Machine.execByteSxStart s
  | .byteScF1 => Sys2Proof.Machine.execByteScF1 s
  | .byteScF2 => Sys2Proof.Machine.execByteScF2 s
  | .byteScF3 => Sys2Proof.Machine.execByteScF3 s
  | .byteUndefF4 => Sys2Proof.Machine.execByteUndefF4 s
  | .byteUndefF5 => Sys2Proof.Machine.execByteUndefF5 s
  | .byteTune => Sys2Proof.Machine.execByteTune s
  | .byteSxEnd => Sys2Proof.Machine.execByteSxEnd s
  | .byteRtF8 => Sys2Proof.Machine.execByteRtF8 s
  | .byteRtResF9 => Sys2Proof.Machine.execByteRtResF9 s
  | .byteRtFA => Sys2Proof.Machine.execByteRtFA s
  | .byteRtFB => Sys2Proof.Machine.execByteRtFB s
  | .byteRtFC => Sys2Proof.Machine.execByteRtFC s
  | .byteRtResFD => Sys2Proof.Machine.execByteRtResFD s
  | .byteRtFE => Sys2Proof.Machine.execByteRtFE s
  | .byteRtFF => Sys2Proof.Machine.execByteRtFF s

end Sys2Proof.Machine
end

