-- ==== Sys2Proof/Machine/Step.lean ====
section
/-! DEFINITION. One step of the block: the next command the host has issued is taken, decoded and run. The block
has no program counter (10_state.md R32); an idle block keeps its state (60_exceptions.md R337), and a faulted
one takes no step (R322). -/

namespace Sys2Proof.Machine

/-- One step. -/
def step (s : State) : Host.Outcome State Fault Refusal :=
  match fetch s with
  | .halted r => .fault (.quiescent r)
  | .idle => .next s
  | .reserved s' => .next s'
  | .malformed why => .refused (.malformedFrame why)
  | .run i s' => exec i s'

/-- `s` with an opcode-table word issued as the next command (log 1, log 9). -/
def State.withFetchWord (s : State) (nbits w : Nat) : State := issueTableWord s nbits w

end Sys2Proof.Machine
end

