-- ==== Sys2Proof/Safety.lean ====
section
/-! DEFINITION. The terms claims use: what a command does to its instance and to nothing else, runs of commands, the
packet as one value, the invariants of 10_state.md, and what a clean run is. -/

namespace Sys2Proof.Machine

/-! ## A packet as one 128-bit value (20_memory.md R71, R72) -/

/-- The four words one after the other, word 0 on top: byte `i` is bits [127 - 8i : 120 - 8i]. -/
def packetBits (p : Packet) : BitVec 128 := p.w0 ++ p.w1 ++ p.w2 ++ p.w3

/-! ## What one command does -/

/-- The command answers OK with result `v` and changes nothing. -/
def Answers (i : Instr) (s : State) (v : Result) : Prop :=
  exec i s = .next { s with responses := s.responses ++ [⟨.ok, some v, []⟩] }

/-- The command takes the fault `r` and changes nothing else (60_exceptions.md R322). -/
def Faults (i : Instr) (s : State) (r : FaultReason) : Prop :=
  exec i s = .next { s with faultRec := some r, responses := s.responses ++ [⟨.fault r, none, []⟩] }

/-- The command is refused with `r` and changes nothing else (R324). -/
def Refuses (i : Instr) (s : State) (r : RefuseReason) : Prop :=
  exec i s = .next { s with refusedMark := true, responses := s.responses ++ [⟨.refused r, none, []⟩] }

/-- The command makes the addressed parser `u`, emits `ev`, and changes nothing else: no other instance,
no other field. -/
def BpBecomes (i : Instr) (s : State) (u : Bp) (ev : List Event) : Prop :=
  ∃ t, exec i s = .next t ∧ t.bpAt s.target.idx = u ∧ (∀ m, m ≠ s.target.idx → t.bpAt m = s.bpAt m) ∧
    t = { s with bp := t.bp, responses := s.responses ++ [⟨.ok, none, ev⟩] }

/-- The same for the addressed seven-bit collector. -/
def Fc7Becomes (i : Instr) (s : State) (u : Fc7) (ev : List Event) : Prop :=
  ∃ t, exec i s = .next t ∧ t.fc7At s.target.idx = u ∧ (∀ m, m ≠ s.target.idx → t.fc7At m = s.fc7At m) ∧
    t = { s with fc7 := t.fc7, responses := s.responses ++ [⟨.ok, none, ev⟩] }

/-- The same for the addressed eight-bit collector. -/
def Fc8Becomes (i : Instr) (s : State) (u : Fc8) (ev : List Event) : Prop :=
  ∃ t, exec i s = .next t ∧ t.fc8At s.target.idx = u ∧ (∀ m, m ≠ s.target.idx → t.fc8At m = s.fc8At m) ∧
    t = { s with fc8 := t.fc8, responses := s.responses ++ [⟨.ok, none, ev⟩] }

/-- The same for the addressed clock follower, with the command's result. -/
def JrBecomes (i : Instr) (s : State) (u : Jr) (v : Option Result) : Prop :=
  ∃ t, exec i s = .next t ∧ t.jrAt s.target.idx = u ∧ (∀ m, m ≠ s.target.idx → t.jrAt m = s.jrAt m) ∧
    t = { s with jr := t.jr, responses := s.responses ++ [⟨.ok, v, []⟩] }

/-! ## Runs of commands to one instance -/

/-- The commands in order, all to the instance the state addresses; it stops at the first stop. -/
def runAll : List Instr → State → Step
  | [], s => .next s
  | i :: rest, s =>
    match exec i s with
    | .next t => runAll rest t
    | .fault r => .fault r
    | .refused r => .refused r

/-- `BP.FEEDN` (30_encoding.md R108): the bytes fed one by one. -/
def feedN (l : Bytes) : List Instr := l.map Instr.bpFeed

/-- The events of some responses, in delivery order. -/
def eventsOf (l : List Response) : List Event := l.flatMap Response.events

/-- The times some responses return. -/
def timesOf (l : List Response) : List Nat :=
  l.filterMap fun r => match r.result with
    | some (.time t) => some t
    | _ => none

/-- Two states hold the same units. -/
def SameUnits (s t : State) : Prop :=
  (∀ n, s.bpAt n = t.bpAt n) ∧ (∀ n, s.fc7At n = t.fc7At n) ∧ (∀ n, s.fc8At n = t.fc8At n) ∧
    (∀ n, s.jrAt n = t.jrAt n)

/-- No fault is recorded and no command has been refused: the premise R324 asks of a claim about a run. -/
def State.clean (s : State) : Bool := s.faultRec.isNone && !s.refusedMark

/-! ## What the instructions carry -/

/-- The unit kind a command code's high nibble selects (30_encoding.md R93, R94). -/
def unitOfCode (code : Byte) : Option UnitKind :=
  match code.toNat / 16 with
  | 0 => some .pk
  | 1 => some .sc
  | 2 => some .bp
  | 3 => some .fc7
  | 4 => some .fc8
  | 5 => some .sx
  | 6 => some .jr
  | _ => none

/-- The legacy byte an instruction gives the parser: `BP.FEED`'s operand, or the byte of a byte row
(R103). -/
def byteOf : Instr → Option Byte
  | .bpFeed b => some b
  | .byteData v => some (BitVec.ofNat 8 v.toNat)
  | .byteCv80 v => some (BitVec.ofNat 8 (0x80 + v.toNat))
  | .byteCvC0 v => some (BitVec.ofNat 8 (0xC0 + v.toNat))
  | .byteCvE0 v => some (BitVec.ofNat 8 (0xE0 + v.toNat))
  | .byteSxStart => some 0xF0
  | .byteScF1 => some 0xF1
  | .byteScF2 => some 0xF2
  | .byteScF3 => some 0xF3
  | .byteUndefF4 => some 0xF4
  | .byteUndefF5 => some 0xF5
  | .byteTune => some 0xF6
  | .byteSxEnd => some 0xF7
  | .byteRtF8 => some 0xF8
  | .byteRtResF9 => some 0xF9
  | .byteRtFA => some 0xFA
  | .byteRtFB => some 0xFB
  | .byteRtFC => some 0xFC
  | .byteRtResFD => some 0xFD
  | .byteRtFE => some 0xFE
  | .byteRtFF => some 0xFF
  | _ => none

/-- The packet an instruction gives a seven-bit collector: `FC7.FEED`'s operand, or a T3 row's packet. -/
def fragment7Of : Instr → Option Packet
  | .fc7Feed p => some p
  | .t3Complete g n data => some (t3Packet g .complete n data)
  | .t3Start g n data => some (t3Packet g .start n data)
  | .t3Cont g n data => some (t3Packet g .cont n data)
  | .t3End g n data => some (t3Packet g .end_ n data)
  | _ => none

/-- The packet an instruction gives an eight-bit collector: `FC8.FEED`'s operand, or a T5 row's packet. -/
def fragment8Of : Instr → Option Packet
  | .fc8Feed p => some p
  | .t5Complete g n sid data => some (t5Packet g .complete n sid data)
  | .t5Start g n sid data => some (t5Packet g .start n sid data)
  | .t5Cont g n sid data => some (t5Packet g .cont n sid data)
  | .t5End g n sid data => some (t5Packet g .end_ n sid data)
  | _ => none

/-- A row that is no command, as the command with the same effect; a command is itself (log 8). -/
def commandOf (i : Instr) : Instr :=
  match encode i with
  | .cmd _ _ => i
  | .byte b => .bpFeed b
  | .packet fmt p => packetCommand fmt p

/-- The fault an instruction raises at its own unit, by the fault catalogue (60_exceptions.md R323). -/
def faultOf : Instr → Option FaultReason
  | .pkGroup p => if p.w0.toNat < 2 ^ 28 then some .grouplessUtility else none
  | .pkMake n _ _ _ _ => if n = 0 ∨ n = 5 ∨ n = 6 ∨ n = 7 then some .badWordCount else none
  | .pkGet14 _ i => if i = 15 then some .fieldRange else none
  | .pkSet14 _ i _ => if i = 15 then some .fieldRange else none
  | .pkGet28 _ i => if i = 13 ∨ i = 14 ∨ i = 15 then some .fieldRange else none
  | .pkSet28 _ i _ => if i = 13 ∨ i = 14 ∨ i = 15 then some .fieldRange else none
  | .fr7Frag mid _ _ => if canonicalId mid then none else some .noncanonicalId
  | .fr8Frag mid _ _ _ => if canonicalId mid then none else some .noncanonicalId
  | _ => none

/-- A payload's bytes split into the manufacturer id and the data (43_fragment_collectors.md R240, R252):
a non-zero first byte is a one-byte id, a zero first byte is followed by the two further id bytes, and
an id that is cut short keeps 0 in its missing bytes (92_eei_decisions.md D17). Id bytes are masked to
7 bits; `f` is what is done to a data byte. -/
def idSplit (f : Byte → Byte) : Bytes → Accum
  | [] => ⟨0, 0, []⟩
  | x :: rest =>
    if x &&& 0x7F = 0 then
      match rest with
      | [] => ⟨1, 0, []⟩
      | [y] => ⟨2, 0#8 ++ (y &&& 0x7F) ++ 0#8, []⟩
      | y :: z :: rest => ⟨3, 0#8 ++ (y &&& 0x7F) ++ (z &&& 0x7F), rest.map f⟩
    else ⟨3, (x &&& 0x7F) ++ 0#16, rest.map f⟩

/-- A byte cut to 7 bits. -/
def mask7 (b : Byte) : Byte := b &&& 0x7F

/-- A value fits the time width (44_jitter_clock_follower.md R290). -/
def Fits (c : Params) (x : Nat) : Prop := ∀ w, c.jrTimeW = some w → x < 2 ^ w

/-- The 16-bit wraparound delta as a natural (R291). -/
def deltaNat (a b : BitVec 16) : Nat := (a.toNat + 65536 - b.toNat) % 65536

/-- A fault has been reported. -/
def Report.isFault : Report → Bool
  | .fault _ => true
  | .ok => false
  | .refused _ => false

/-- A refusal has been reported. -/
def Report.isRefusal : Report → Bool
  | .refused _ => true
  | .ok => false
  | .fault _ => false

/-! ## Invariants (10_state.md R36, R39, R41, R42, R44, R45, R47) -/

/-- A length within a capacity. -/
def WithinCap (cap : Option Nat) (n : Nat) : Prop := ∀ c, cap = some c → n ≤ c

/-- A list of 7-bit values. -/
def SevenBit (l : Bytes) : Prop := ∀ b ∈ l, b.toNat < 0x80

/-- The id counter runs to 3, no payload byte stands before the id is complete, an id without its first
non-zero byte is 0, and the id is made of 7-bit bytes (R42, R44, R240). -/
structure AccumInv (a : Accum) : Prop where
  counter : a.mc ≤ 3
  idFirst : a.mc < 3 → a.buf = []
  idStart : a.mc ≤ 1 → a.mid = 0
  idSevenBit : a.mid &&& 0x808080#24 = 0

/-- A status a pending message can have: channel voice, or system common with data (R41, R103). -/
def IsMessageStatus (s : Byte) : Prop := (0x80 ≤ s.toNat ∧ s.toNat ≤ 0xEF) ∨ s = 0xF1 ∨ s = 0xF2 ∨ s = 0xF3

/-- The invariant of a parser (R36, R39, R41, R42), for its buffer capacity. -/
structure BpInv (cap : Option Nat) (u : Bp) : Prop where
  /-- R41: no message is pending, and its fields are at their reset values. -/
  noMessage : u.st = none → u.need = 0 ∧ u.cur = 0 ∧ u.d0 = 0 ∧ u.d1 = 0
  /-- R41: a message is pending, and bytes are still expected. -/
  message : ∀ s, u.st = some s → IsMessageStatus s ∧ u.need + u.cur = dataCount s ∧ 1 ≤ u.need ∧ u.sx = false
  /-- R196, R198: a pending channel-voice message is the running status; system common has none. -/
  messageRunning : ∀ s, u.st = some s → u.rs = if s.toNat ≤ 0xEF then some s else none
  /-- R39, R197: running status is channel voice, and there is none during system exclusive. -/
  running : ∀ r, u.rs = some r → 0x80 ≤ r.toNat ∧ r.toNat ≤ 0xEF ∧ u.sx = false
  /-- R195: the data slots hold data bytes. -/
  slots : u.d0.toNat < 0x80 ∧ u.d1.toNat < 0x80
  /-- R36: a held fragment has at most six data bytes, and one after the first is not empty. -/
  fragment : u.fb.length ≤ 6 ∧ SevenBit u.fb ∧ (u.ffirst = false → u.fb ≠ [])
  /-- R42: outside system exclusive its fields are at their reset values. -/
  noSysex : u.sx = false → u.fb = [] ∧ u.ffirst = true ∧ u.acc = Accum.clear
  /-- R42: each mode leaves the fields of the other at their reset values. -/
  packetsMode : u.cfgMode = .packets → u.acc = Accum.clear
  payloadMode : u.cfgMode = .payload → u.fb = [] ∧ u.ffirst = true
  /-- R240: the id under decode. -/
  acc : AccumInv u.acc
  /-- R36: the payload is 7-bit clean and within `BP_BUF_CAP`. -/
  payload : SevenBit u.acc.buf ∧ WithinCap cap u.acc.buf.length

/-- The invariant of a seven-bit collector (R44), for its accumulator's capacity. -/
structure Fc7Inv (cap : Option Nat) (u : Fc7) : Prop where
  idle : u.ph = .idle → u.acc = Accum.clear
  acc : AccumInv u.acc
  payload : SevenBit u.acc.buf ∧ WithinCap cap u.acc.buf.length

/-- The invariant of an eight-bit collector (R44, R45): bytes have been dropped only after the id. -/
structure Fc8Inv (u : Fc8) : Prop where
  idle : u.ph = .idle → u.acc = Accum.clear ∧ u.tr = false
  acc : AccumInv u.acc
  truncated : u.tr = true → u.acc.mc = 3

/-- The invariant of a clock follower (R47, R290, R292, R296). -/
structure JrInv (c : Params) (u : Jr) : Prop where
  /-- Before the first sync nothing has been written. -/
  unsynced : u.init = false → u = Jr.powerOn c
  /-- R296: the security offset never drops below its floor or the tracked jitter's margin. -/
  offset : c.jrInitSec ≤ u.sec ∧ u.jit * c.jrMarginNum / c.jrMarginDen ≤ u.sec
  /-- R290: every time and duration fits the time width. -/
  fits : fitsTime c u.ref = true ∧ fitsTime c u.wm = true ∧ fitsTime c u.jit = true ∧ fitsTime c u.sec = true

/-- Parameters a realisation can have (R11, R290): a positive tick and denominator, and an initial offset
that fits. -/
structure ParamsOk (c : Params) : Prop where
  tick : 0 < c.jrTick
  den : 0 < c.jrMarginDen
  floorFits : fitsTime c c.jrInitSec = true

/-- The invariant of the machine: every instance meets its unit's, the banks are in canonical form, and the
fault record and the refused mark say what has been reported (R322, R324). -/
structure MachineInv (s : State) : Prop where
  params : ParamsOk s.params
  bpBank : bankWf Bp.powerOn s.bp = true
  fc7Bank : bankWf Fc7.powerOn s.fc7 = true
  fc8Bank : bankWf Fc8.powerOn s.fc8 = true
  jrBank : bankWf (Jr.powerOn s.params) s.jr = true
  bp : ∀ n, BpInv s.params.bpBufCap (s.bpAt n)
  fc7 : ∀ n, Fc7Inv s.params.fc7BufCap (s.fc7At n)
  fc8 : ∀ n, Fc8Inv (s.fc8At n)
  jr : ∀ n, JrInv s.params (s.jrAt n)
  faultRecord : s.faultRec.isSome = s.responses.any fun r => r.report.isFault
  refused : s.refusedMark = s.responses.any fun r => r.report.isRefusal

end Sys2Proof.Machine
end

