-- ==== Sys2Proof/Certificates/Slice0/Obligations.lean ====
section
/-! DEFINITION. The statements for the provers. Each docstring names the rule it formalises; where a statement rests on
the model's own choice, the docstring names the log entry. -/

open Sys2Proof Sys2Proof.Machine

/-! ## Reset, the step, and the invariant -/

/-- 70_reset_and_hazards.md R340: at power-on every instance of every unit holds its power-on values, and the
fault record and the refused mark are clear. -/
def Obligations.ResetIsPowerOn : Prop :=
  (∀ n, State.reset.bpAt n =
    { cfgGroup := 0, cfgEmit := true, cfgMode := .packets, st := none, need := 0, cur := 0, d0 := 0, d1 := 0,
      rs := none, sx := false, fb := [], ffirst := true, acc := ⟨0, 0, []⟩ }) ∧
  (∀ n, State.reset.fc7At n = { ph := .idle, acc := ⟨0, 0, []⟩ }) ∧
  (∀ n, State.reset.fc8At n = { ph := .idle, acc := ⟨0, 0, []⟩, act := 0, tr := false, max := none }) ∧
  (∀ n, State.reset.jrAt n =
    { init := false, lts := 0, ref := 0, wm := 0, jit := 0, sec := State.reset.params.jrInitSec }) ∧
  State.reset.faultRec = none ∧ State.reset.refusedMark = false

/-- The invariant holds at reset. -/
def Obligations.ResetMeetsInvariant : Prop := MachineInv State.reset

/-- Every step keeps the invariant (10_state.md R36, R39, R41, R42, R44, R45, R47; 60_exceptions.md R322, R324). -/
def Obligations.StepKeepsInvariant : Prop := ∀ s t, MachineInv s → step s = .next t → MachineInv t

/-- A step takes the next transaction, addresses its target and runs the decoded instruction, with nothing
around it (30_encoding.md R93; log 1, log 3). -/
def Obligations.StepRunsDecodedInstruction : Prop :=
  ∀ (s : State) (f : Frame) (rest : List Frame) (i : Instr),
    s.faultRec = none → s.inbox = f :: rest → decode f.raw = .ok i →
    step s = exec i { s with inbox := rest, target := f.target }

/-- A step on a presented packet gives it to its unit: the type decoder, or the collector of its format, whether the
packet has a row of the opcode table or not (10_state.md R30; the model's choice, log 8). -/
def Obligations.PresentedPacketsReachTheirUnits : Prop :=
  ∀ (s : State) (tgt : Target) (fmt : PacketFormat) (p : Packet) (rest : List Frame),
    s.faultRec = none → s.inbox = ⟨tgt, .packet fmt p⟩ :: rest →
    step s = exec (match fmt with | .w0 => .pkSize p | .t3 => .fc7Feed p | .t5 => .fc8Feed p)
      { s with inbox := rest, target := tgt }

/-- 30_encoding.md R105: a packet with a reserved kind, a count out of range or another tag that is presented as a
fragment is taken and ignored: no collector changes, nothing is emitted (log 8 for the presenting). -/
def Obligations.UnrecognizedFragmentsAreIgnored : Prop :=
  ∀ (s : State) (n : Nat) (p : Packet) (rest : List Frame), s.faultRec = none →
    (let tag := p.w0.toNat / 2 ^ 28
     let kind := p.w0.toNat / 2 ^ 20 % 16
     let count := p.w0.toNat / 2 ^ 16 % 16
     (s.inbox = ⟨⟨.fc7, n⟩, .packet .t3 p⟩ :: rest → ¬ (tag = 3 ∧ kind ≤ 3 ∧ count ≤ 6) →
       ∃ t, step s = .next t ∧ (∀ m, t.fc7At m = s.fc7At m) ∧
         t = { s with inbox := rest, target := ⟨.fc7, n⟩, fc7 := t.fc7, responses := s.responses ++ [⟨.ok, none, []⟩] }) ∧
     (s.inbox = ⟨⟨.fc8, n⟩, .packet .t5 p⟩ :: rest → ¬ (tag = 5 ∧ kind ≤ 3 ∧ 1 ≤ count ∧ count ≤ 14) →
       ∃ t, step s = .next t ∧ (∀ m, t.fc8At m = s.fc8At m) ∧
         t = { s with inbox := rest, target := ⟨.fc8, n⟩, fc8 := t.fc8, responses := s.responses ++ [⟨.ok, none, []⟩] }))

/-- A faulted model takes no further step, however often it is stepped (60_exceptions.md R322), and an idle
one keeps its state (R337). -/
def Obligations.FaultedOrIdleStep : Prop :=
  (∀ (s : State) (r : FaultReason) (k : Nat), s.faultRec = some r →
    step s = .fault (.quiescent r) ∧ Sys2Proof.core.run (k + 1) s = .fault (.quiescent r)) ∧
  ∀ s : State, s.faultRec = none → s.inbox = [] → step s = .next s

/-- 30_encoding.md R95: exactly the codes listed there are reserved; a reserved code is refused and changes no
unit; a command sent to another unit kind than its code's high nibble selects is refused and changes
nothing but the mark (log 4 for the kinds). -/
def Obligations.ReservedAndMisaddressedCommandsAreRefused : Prop :=
  (∀ (c : Byte) (fs : List Field), decode (.cmd c fs) = .error (.reservedCmd c) ↔
    ((0x18 ≤ c.toNat ∧ c.toNat ≤ 0x1F) ∨ (0x23 ≤ c.toNat ∧ c.toNat ≤ 0x2F) ∨ (0x32 ≤ c.toNat ∧ c.toNat ≤ 0x3F) ∨
      (0x43 ≤ c.toNat ∧ c.toNat ≤ 0x4F) ∨ (0x55 ≤ c.toNat ∧ c.toNat ≤ 0x5F) ∨ 0x63 ≤ c.toNat)) ∧
  (∀ (s : State) (tgt : Target) (c : Byte) (fs : List Field) (rest : List Frame),
    s.faultRec = none → s.inbox = ⟨tgt, .cmd c fs⟩ :: rest → decode (.cmd c fs) = .error (.reservedCmd c) →
    step s = .next { s with inbox := rest, target := tgt, refusedMark := true,
                            responses := s.responses ++ [⟨.refused .reservedCmd, none, []⟩] }) ∧
  ∀ (s : State) (c : Byte) (fs : List Field) (i : Instr),
    decode (.cmd c fs) = .ok i → some s.target.unit ≠ unitOfCode c → Refuses i s .wrongUnit

/-! ## Encoding -/

/-- Decoding what the encoder writes gives the instruction back, for every instruction and every operand. -/
def Obligations.DecodeOfEncode : Prop := ∀ i : Instr, decode (encode i) = .ok i

/-- A transaction that has an instruction is the one the encoder writes for it: no two transactions decode
to the same instruction. -/
def Obligations.EncodeOfDecode : Prop := ∀ (r : Raw) (i : Instr), decode r = .ok i → encode i = r

/-- A few transactions written out from 30_encoding.md and the encodings of 95_test_vectors.md section 10. -/
def Obligations.SampleTransactionsDecode : Prop :=
  decode (.cmd 0x0A [.packet ⟨0x20E00000, 0, 0, 0⟩, .num 2, .num 0x3000]) =
    .ok (.pkSet14 ⟨0x20E00000, 0, 0, 0⟩ 2 0x3000) ∧
  decode (.cmd 0x16 [.num 0xC000]) = .ok (.scDn16To14 0xC000) ∧
  decode (.cmd 0x22 [.num 2, .num 1, .num 0]) = .ok (.bpCfg 2 1 0) ∧
  decode (.cmd 0x30 [.packet ⟨0x32164101, 0x02030405, 0, 0⟩]) = .ok (.fc7Feed ⟨0x32164101, 0x02030405, 0, 0⟩) ∧
  decode (.cmd 0x42 [.limit (some 4)]) = .ok (.fc8Cfg (some 4)) ∧
  decode (.cmd 0x54 [.num 0x002109, .bytes [0x80, 0x8F], .num 0, .num 7]) = .ok (.fr8Frag 0x002109 [0x80, 0x8F] 0 7) ∧
  decode (.cmd 0x60 [.num 7500, .num 300]) = .ok (.jrSync 7500 300) ∧
  decode (.cmd 0x60 [.num 7500, .num 65536]) = .error (.badOperands 0x60) ∧
  decode (.packet .w0 ⟨0xD1234567, 8, 9, 10⟩) = .ok (.tagFlex 1 0x23 0x4567 8 9 10) ∧
  decode (.packet .t3 ⟨0x32160102, 0x03040506, 0, 0⟩) = .ok (.t3Start 2 6 0x010203040506) ∧
  decode (.packet .t5 ⟨0x5032070D, 0, 0, 0⟩) = .ok (.t5End 0 2 7 0x0D000000000000000000000000) ∧
  decode (.byte 0x95) = .ok (.byteCv80 0x15) ∧ decode (.byte 0xF2) = .ok .byteScF2

/-! ## The outcomes of a command -/

/-- No instruction stops: `exec` answers a next state for every instruction in every state (60_exceptions.md
R320: every command ends in one of the three outcomes, all of which the model takes; log 5, log 6). -/
def Obligations.EveryInstructionCompletes : Prop := ∀ (i : Instr) (s : State), ∃ t, exec i s = .next t

/-- 60_exceptions.md R320, R322, R324 and 20_memory.md R86: a command hands over exactly one response with at most one
event; with OK no mark changes; a fault writes nothing but the fault record and a refusal nothing but
the refused mark, and neither returns or emits anything. -/
def Obligations.OneOutcomePerCommand : Prop :=
  ∀ (i : Instr) (s t : State), exec i s = .next t → ∃ r : Response,
    t.responses = s.responses ++ [r] ∧ r.events.length ≤ 1 ∧
    match r.report with
    | .ok => t.faultRec = s.faultRec ∧ t.refusedMark = s.refusedMark
    | .fault f => r.result = none ∧ r.events = [] ∧
        t = { s with faultRec := some f, responses := s.responses ++ [r] }
    | .refused _ => r.result = none ∧ r.events = [] ∧
        t = { s with refusedMark := true, responses := s.responses ++ [r] }

/-- 10_state.md R34, 20_memory.md R77, R80: a command changes no instance but the addressed one, no instance at all when it
is addressed to a unit without state, and neither the parameters, the waiting commands nor the
address. -/
def Obligations.InstancesAreIndependent : Prop :=
  ∀ (i : Instr) (s t : State), exec i s = .next t →
    t.params = s.params ∧ t.inbox = s.inbox ∧ t.target = s.target ∧
    (∀ n, s.target ≠ ⟨.bp, n⟩ → t.bpAt n = s.bpAt n) ∧ (∀ n, s.target ≠ ⟨.fc7, n⟩ → t.fc7At n = s.fc7At n) ∧
    (∀ n, s.target ≠ ⟨.fc8, n⟩ → t.fc8At n = s.fc8At n) ∧ (∀ n, s.target ≠ ⟨.jr, n⟩ → t.jrAt n = s.jrAt n)

/-- 60_exceptions.md R323: a command faults exactly when it is at its own unit and the catalogue says so, with the
catalogue's reason. -/
def Obligations.FaultsAreTheCatalogue : Prop :=
  ∀ (i : Instr) (s : State) (r : FaultReason), Faults i s r ↔ s.target.unit = unitOf i ∧ faultOf i = some r

/-- 40_packet.md R148: an instruction whose operands meet the documented preconditions raises no fault. -/
def Obligations.WellFormedNeverFaults : Prop :=
  ∀ (i : Instr) (s t : State), i.wellFormed = true → exec i s = .next t → t.faultRec = s.faultRec

/-- 60_exceptions.md R325, last sentence: without capacities and without a time width, `BUF_OVERFLOW` and
`TIME_OVERFLOW` cannot occur. -/
def Obligations.DefaultsNeverOverflow : Prop :=
  ∀ (i : Instr) (s : State), s.params.bpBufCap = none → s.params.fc7BufCap = none → s.params.jrTimeW = none →
    ¬ Refuses i s .bufOverflow ∧ ¬ Refuses i s .timeOverflow

/-- A packet, fragment or byte row does what the command does that gives its unit the same packet or byte:
`PK.SIZE`, `FC7.FEED`, `FC8.FEED`, `BP.FEED` (the model's choice, log 8). -/
def Obligations.RowsActAsTheirCommands : Prop := ∀ (i : Instr) (s : State), exec i s = exec (commandOf i) s

/-! ## PK -/

/-- 40_packet.md R137: `PK.MAKE`. -/
def Obligations.PkMakeBuildsFromWords : Prop :=
  ∀ (n : BitVec 3) (a0 a1 a2 a3 : Word) (s : State), s.target.unit = .pk →
    encode (.pkMake n a0 a1 a2 a3) =
      .cmd 0x00 [.num n.toNat, .num a0.toNat, .num a1.toNat, .num a2.toNat, .num a3.toNat] ∧
    (1 ≤ n.toNat ∧ n.toNat ≤ 4 → Answers (.pkMake n a0 a1 a2 a3) s
      (.packet ⟨a0, if 2 ≤ n.toNat then a1 else 0, if 3 ≤ n.toNat then a2 else 0, if n.toNat = 4 then a3 else 0⟩)) ∧
    (n.toNat < 1 ∨ 4 < n.toNat → Faults (.pkMake n a0 a1 a2 a3) s .badWordCount)

/-- 40_packet.md R130 to R133: `PK.SIZE`, `PK.TYPE`, `PK.GROUP` and `PK.STATUS`, with the type tag as bits [31:28], the group
as [27:24] and the status as [23:16] of word 0. -/
def Obligations.PkReadsWordZero : Prop :=
  ∀ (p : Packet) (s : State), s.target.unit = .pk →
    encode (.pkSize p) = .cmd 0x01 [.packet p] ∧ encode (.pkType p) = .cmd 0x02 [.packet p] ∧
    encode (.pkGroup p) = .cmd 0x03 [.packet p] ∧ encode (.pkStatus p) = .cmd 0x04 [.packet p] ∧
    (let tag := p.w0.toNat / 2 ^ 28
     Answers (.pkSize p) s (.bits3 (if tag = 3 ∨ tag = 4 then 2 else if tag = 5 ∨ tag = 0xD ∨ tag = 0xF then 4 else 1)) ∧
     Answers (.pkType p) s (.bits4 (BitVec.ofNat 4 tag)) ∧
     (tag = 0 → Faults (.pkGroup p) s .grouplessUtility) ∧
     (tag ≠ 0 → Answers (.pkGroup p) s (.bits4 (BitVec.ofNat 4 (p.w0.toNat / 2 ^ 24)))) ∧
     Answers (.pkStatus p) s (.bits8 (BitVec.ofNat 8 (p.w0.toNat / 2 ^ 16))))

/-- 40_packet.md R134 and R138: `PK.GETB` and `PK.GET7` read bits [127 - 8i : 120 - 8i] of the four words laid one after the
other, the latter without its top bit. -/
def Obligations.PkByteReads : Prop :=
  ∀ (p : Packet) (i : BitVec 4) (s : State), s.target.unit = .pk →
    encode (.pkGetb p i) = .cmd 0x05 [.packet p, .num i.toNat] ∧
    encode (.pkGet7 p i) = .cmd 0x07 [.packet p, .num i.toNat] ∧
    Answers (.pkGetb p i) s (.bits8 ((packetBits p).extractLsb' (120 - 8 * i.toNat) 8)) ∧
    Answers (.pkGet7 p i) s (.bits7 ((packetBits p).extractLsb' (120 - 8 * i.toNat) 7))

/-- 40_packet.md R135 and R139: `PK.SETB` and `PK.SET7` replace byte `i`, the latter with its top bit 0, and leave every
other byte as it was. -/
def Obligations.PkByteWrites : Prop :=
  ∀ (p : Packet) (i : BitVec 4) (v : Byte) (s : State), s.target.unit = .pk →
    encode (.pkSetb p i v) = .cmd 0x06 [.packet p, .num i.toNat, .num v.toNat] ∧
    encode (.pkSet7 p i v) = .cmd 0x08 [.packet p, .num i.toNat, .num v.toNat] ∧
    (∃ q, Answers (.pkSetb p i v) s (.packet q) ∧ ∀ j, j < 16 →
      (packetBits q).extractLsb' (120 - 8 * j) 8 =
        if j = i.toNat then v else (packetBits p).extractLsb' (120 - 8 * j) 8) ∧
    ∃ q, Answers (.pkSet7 p i v) s (.packet q) ∧ ∀ j, j < 16 →
      (packetBits q).extractLsb' (120 - 8 * j) 8 =
        if j = i.toNat then BitVec.ofNat 8 (v.toNat % 128) else (packetBits p).extractLsb' (120 - 8 * j) 8

/-- 40_packet.md R140, R142 and R143: `PK.GET14` and `PK.GET28` read two and four 7-bit bytes, low-order byte first, and fault
when a byte would lie past byte 15. -/
def Obligations.PkCompositeReads : Prop :=
  ∀ (p : Packet) (i : BitVec 4) (s : State), s.target.unit = .pk →
    encode (.pkGet14 p i) = .cmd 0x09 [.packet p, .num i.toNat] ∧
    encode (.pkGet28 p i) = .cmd 0x0B [.packet p, .num i.toNat] ∧
    (let at7 (j : Nat) : Nat := ((packetBits p).extractLsb' (120 - 8 * j) 7).toNat
     (i.toNat ≤ 14 → ∃ v, Answers (.pkGet14 p i) s (.bits14 v) ∧ v.toNat = at7 i.toNat + 2 ^ 7 * at7 (i.toNat + 1)) ∧
     (i.toNat ≤ 12 → ∃ v, Answers (.pkGet28 p i) s (.bits28 v) ∧
       v.toNat = at7 i.toNat + 2 ^ 7 * at7 (i.toNat + 1) + 2 ^ 14 * at7 (i.toNat + 2) + 2 ^ 21 * at7 (i.toNat + 3))) ∧
    (14 < i.toNat → Faults (.pkGet14 p i) s .fieldRange) ∧ (12 < i.toNat → Faults (.pkGet28 p i) s .fieldRange)

/-- 40_packet.md R141, R142 and R144: `PK.SET14` and `PK.SET28` write two and four bytes, low-order first, each with its top bit
0, leave every other byte as it was, and fault when a byte would lie past byte 15. -/
def Obligations.PkCompositeWrites : Prop :=
  ∀ (p : Packet) (i : BitVec 4) (v : BitVec 14) (x : BitVec 28) (s : State), s.target.unit = .pk →
    encode (.pkSet14 p i v) = .cmd 0x0A [.packet p, .num i.toNat, .num v.toNat] ∧
    encode (.pkSet28 p i x) = .cmd 0x0C [.packet p, .num i.toNat, .num x.toNat] ∧
    (i.toNat ≤ 14 → ∃ q, Answers (.pkSet14 p i v) s (.packet q) ∧ ∀ j, j < 16 →
      (packetBits q).extractLsb' (120 - 8 * j) 8 =
        if i.toNat ≤ j ∧ j < i.toNat + 2 then BitVec.ofNat 8 (v.toNat / 2 ^ (7 * (j - i.toNat)) % 128)
        else (packetBits p).extractLsb' (120 - 8 * j) 8) ∧
    (i.toNat ≤ 12 → ∃ q, Answers (.pkSet28 p i x) s (.packet q) ∧ ∀ j, j < 16 →
      (packetBits q).extractLsb' (120 - 8 * j) 8 =
        if i.toNat ≤ j ∧ j < i.toNat + 4 then BitVec.ofNat 8 (x.toNat / 2 ^ (7 * (j - i.toNat)) % 128)
        else (packetBits p).extractLsb' (120 - 8 * j) 8) ∧
    (14 < i.toNat → Faults (.pkSet14 p i v) s .fieldRange) ∧ (12 < i.toNat → Faults (.pkSet28 p i x) s .fieldRange)

/-- 40_packet.md R145 and R146: `PK.GETN` reads nibble `k`, bits [127 - 4k : 124 - 4k] of the four words; `PK.SETN` replaces it
and leaves every other nibble as it was, on a UTILITY packet too. -/
def Obligations.PkNibbles : Prop :=
  ∀ (p : Packet) (k : BitVec 5) (v : BitVec 4) (s : State), s.target.unit = .pk →
    encode (.pkGetn p k) = .cmd 0x0D [.packet p, .num k.toNat] ∧
    encode (.pkSetn p k v) = .cmd 0x0E [.packet p, .num k.toNat, .num v.toNat] ∧
    Answers (.pkGetn p k) s (.bits4 ((packetBits p).extractLsb' (124 - 4 * k.toNat) 4)) ∧
    ∃ q, Answers (.pkSetn p k v) s (.packet q) ∧ ∀ j, j < 32 →
      (packetBits q).extractLsb' (124 - 4 * j) 4 =
        if j = k.toNat then v else (packetBits p).extractLsb' (124 - 4 * j) 4

/-- 40_packet.md R147 and R149: `PK.ISFAM` for the eight family codes, and its refusal for every other code. -/
def Obligations.PkFamilyMembership : Prop :=
  ∀ (p : Packet) (f : BitVec 4) (s : State), s.target.unit = .pk →
    encode (.pkIsfam p f) = .cmd 0x0F [.packet p, .num f.toNat] ∧
    (f.toNat ∈ [0x0, 0x1, 0x2, 0x3, 0x4, 0x5, 0xD, 0xF] → ∃ b, Answers (.pkIsfam p f) s (.bit b) ∧
      (let status := p.w0.toNat / 2 ^ 16 % 256
       (b = true ↔ p.w0.toNat / 2 ^ 28 = f.toNat ∧
        (f.toNat = 0x1 → status ∈ [0xF1, 0xF2, 0xF3, 0xF6, 0xF8, 0xFA, 0xFB, 0xFC, 0xFE, 0xFF]) ∧
        (f.toNat = 0x2 → 0x80 ≤ status ∧ status ≤ 0xEF) ∧
        (f.toNat = 0x3 → status / 16 ≤ 3 ∧ status % 16 ≤ 6) ∧
        (f.toNat = 0x5 → status / 16 ≤ 3 ∧ 1 ≤ status % 16 ∧ status % 16 ≤ 14)))) ∧
    (f.toNat ∉ [0x0, 0x1, 0x2, 0x3, 0x4, 0x5, 0xD, 0xF] → Refuses (.pkIsfam p f) s .noSuchFamily)

/-- 30_encoding.md R92: the word count is a function of the tag alone, whatever the other bits of the packet are. The
sixteen tag rows answer it (what a tag row does is the model's choice, log 8). -/
def Obligations.TagRowsAnswerWordCount : Prop :=
  ∀ (g : BitVec 4) (st : Byte) (d : BitVec 16) (w1 w2 w3 : Word) (s : State), s.target.unit = .pk →
    Answers (.tagUtility g st d) s (.bits3 1) ∧ Answers (.tagSystem g st d) s (.bits3 1) ∧
    Answers (.tagCv1 g st d) s (.bits3 1) ∧ Answers (.tagSysex7 g st d w1) s (.bits3 2) ∧
    Answers (.tagCv2 g st d w1) s (.bits3 2) ∧ Answers (.tagSysex8 g st d w1 w2 w3) s (.bits3 4) ∧
    Answers (.tagFlex g st d w1 w2 w3) s (.bits3 4) ∧ Answers (.tagStream g st d w1 w2 w3) s (.bits3 4) ∧
    Answers (.tagReserved6 g st d) s (.bits3 1) ∧ Answers (.tagReserved7 g st d) s (.bits3 1) ∧
    Answers (.tagReserved8 g st d) s (.bits3 1) ∧ Answers (.tagReserved9 g st d) s (.bits3 1) ∧
    Answers (.tagReservedA g st d) s (.bits3 1) ∧ Answers (.tagReservedB g st d) s (.bits3 1) ∧
    Answers (.tagReservedC g st d) s (.bits3 1) ∧ Answers (.tagReservedE g st d) s (.bits3 1)

/-- 30_encoding.md R97 to R101: the packets the block builds, field by field. `T1` and `T2` are one word; in `T3` the data
bytes are bytes 2 to 7 and in `T5` the stream id is byte 2 and the data bytes are bytes 3 to 15, with 0
past the payload. -/
def Obligations.PacketLayouts : Prop :=
  (∀ (g : BitVec 4) (st d1 d2 : Byte),
    t1 g st d1 d2 = ⟨BitVec.ofNat 32 (0x1 * 2 ^ 28 + g.toNat * 2 ^ 24 + st.toNat * 2 ^ 16 + d1.toNat * 2 ^ 8 + d2.toNat), 0, 0, 0⟩ ∧
    t2 g st d1 d2 = ⟨BitVec.ofNat 32 (0x2 * 2 ^ 28 + g.toNat * 2 ^ 24 + st.toNat * 2 ^ 16 + d1.toNat * 2 ^ 8 + d2.toNat), 0, 0, 0⟩) ∧
  (FragKind.complete.code = 0 ∧ FragKind.start.code = 1 ∧ FragKind.cont.code = 2 ∧ FragKind.end_.code = 3) ∧
  (∀ (g : BitVec 4) (k : FragKind) (l : Bytes) (j : Nat), l.length ≤ 6 → j < 16 →
    ((packetBits (t3 g k l)).extractLsb' (120 - 8 * j) 8).toNat =
      if j = 0 then 0x30 + g.toNat else if j = 1 then k.code.toNat * 16 + l.length else (l.getD (j - 2) 0).toNat) ∧
  ∀ (g : BitVec 4) (k : FragKind) (sid : Byte) (l : Bytes) (j : Nat), l.length ≤ 13 → j < 16 →
    ((packetBits (t5 g k sid l)).extractLsb' (120 - 8 * j) 8).toNat =
      if j = 0 then 0x50 + g.toNat else if j = 1 then k.code.toNat * 16 + (l.length + 1)
      else if j = 2 then sid.toNat else (l.getD (j - 3) 0).toNat

/-! ## SC -/

/-- 41_scalers.md R170 and R172 to R175: the four up-scalers, with the repeated low bits of a value above the centre
written out. -/
def Obligations.ScalersUp : Prop :=
  ∀ (v : BitVec 7) (x : BitVec 14) (s : State), s.target.unit = .sc →
    encode (.scUp7To16 v) = .cmd 0x10 [.num v.toNat] ∧ encode (.scUp7To32 v) = .cmd 0x11 [.num v.toNat] ∧
    encode (.scUp14To16 x) = .cmd 0x12 [.num x.toNat] ∧ encode (.scUp14To32 x) = .cmd 0x13 [.num x.toNat] ∧
    (let low := v.toNat % 64
     let lowX := x.toNat % 8192
     Answers (.scUp7To16 v) s (.bits16 (BitVec.ofNat 16
       (v.toNat * 2 ^ 9 + if v.toNat ≤ 64 then 0 else low * 2 ^ 3 + low / 2 ^ 3))) ∧
     Answers (.scUp7To32 v) s (.bits32 (BitVec.ofNat 32
       (v.toNat * 2 ^ 25 + if v.toNat ≤ 64 then 0 else
         low * 2 ^ 19 + low * 2 ^ 13 + low * 2 ^ 7 + low * 2 + low / 2 ^ 5))) ∧
     Answers (.scUp14To16 x) s (.bits16 (BitVec.ofNat 16
       (x.toNat * 2 ^ 2 + if x.toNat ≤ 8192 then 0 else lowX / 2 ^ 11))) ∧
     Answers (.scUp14To32 x) s (.bits32 (BitVec.ofNat 32
       (x.toNat * 2 ^ 18 + if x.toNat ≤ 8192 then 0 else lowX * 2 ^ 5 + lowX / 2 ^ 8))))

/-- 41_scalers.md R171 and R176 to R179: the four down-scalers keep the top bits. -/
def Obligations.ScalersDown : Prop :=
  ∀ (w : BitVec 16) (x : BitVec 32) (s : State), s.target.unit = .sc →
    encode (.scDn16To7 w) = .cmd 0x14 [.num w.toNat] ∧ encode (.scDn32To7 x) = .cmd 0x15 [.num x.toNat] ∧
    encode (.scDn16To14 w) = .cmd 0x16 [.num w.toNat] ∧ encode (.scDn32To14 x) = .cmd 0x17 [.num x.toNat] ∧
    Answers (.scDn16To7 w) s (.bits7 (w.extractLsb' 9 7)) ∧ Answers (.scDn32To7 x) s (.bits7 (x.extractLsb' 25 7)) ∧
    Answers (.scDn16To14 w) s (.bits14 (w.extractLsb' 2 14)) ∧ Answers (.scDn32To14 x) s (.bits14 (x.extractLsb' 18 14))

/-- 41_scalers.md R180: minimum, maximum, midpoint, round trip, and strict increase, for the four pairs. -/
def Obligations.ScalerLaws : Prop :=
  ∀ s : State, s.target.unit = .sc →
    (Answers (.scUp7To16 0) s (.bits16 0) ∧ Answers (.scUp7To16 0x7F) s (.bits16 0xFFFF) ∧
      Answers (.scUp7To16 0x40) s (.bits16 0x8000) ∧ Answers (.scUp7To32 0) s (.bits32 0) ∧
      Answers (.scUp7To32 0x7F) s (.bits32 0xFFFFFFFF) ∧ Answers (.scUp7To32 0x40) s (.bits32 0x80000000)) ∧
    (Answers (.scUp14To16 0) s (.bits16 0) ∧ Answers (.scUp14To16 0x3FFF) s (.bits16 0xFFFF) ∧
      Answers (.scUp14To16 0x2000) s (.bits16 0x8000) ∧ Answers (.scUp14To32 0) s (.bits32 0) ∧
      Answers (.scUp14To32 0x3FFF) s (.bits32 0xFFFFFFFF) ∧ Answers (.scUp14To32 0x2000) s (.bits32 0x80000000)) ∧
    (∀ v : BitVec 7, (∃ w, Answers (.scUp7To16 v) s (.bits16 w) ∧ Answers (.scDn16To7 w) s (.bits7 v)) ∧
      ∃ w, Answers (.scUp7To32 v) s (.bits32 w) ∧ Answers (.scDn32To7 w) s (.bits7 v)) ∧
    (∀ v : BitVec 14, (∃ w, Answers (.scUp14To16 v) s (.bits16 w) ∧ Answers (.scDn16To14 w) s (.bits14 v)) ∧
      ∃ w, Answers (.scUp14To32 v) s (.bits32 w) ∧ Answers (.scDn32To14 w) s (.bits14 v)) ∧
    (∀ (v x : BitVec 7) (w y : BitVec 16), v < x → Answers (.scUp7To16 v) s (.bits16 w) →
      Answers (.scUp7To16 x) s (.bits16 y) → w < y) ∧
    (∀ (v x : BitVec 7) (w y : BitVec 32), v < x → Answers (.scUp7To32 v) s (.bits32 w) →
      Answers (.scUp7To32 x) s (.bits32 y) → w < y) ∧
    (∀ (v x : BitVec 14) (w y : BitVec 16), v < x → Answers (.scUp14To16 v) s (.bits16 w) →
      Answers (.scUp14To16 x) s (.bits16 y) → w < y) ∧
    ∀ (v x : BitVec 14) (w y : BitVec 32), v < x → Answers (.scUp14To32 v) s (.bits32 w) →
      Answers (.scUp14To32 x) s (.bits32 y) → w < y

/-! ## BP. `byteOf i = some b` says that `i` is `BP.FEED b` or the byte row of `b` (log 8) -/

/-- 42_byte_stream_parser.md R193: a real-time byte is emitted at once and disturbs nothing, in every state of the
parser; 0xF9 and 0xFD do nothing.
That the byte rows do this too is the model's choice (log 8). -/
def Obligations.BpRealTimeByte : Prop :=
  ∀ (i : Instr) (b : Byte) (s : State), byteOf i = some b → s.target.unit = .bp → 0xF8 ≤ b.toNat →
    (let u := s.bpAt s.target.idx
     BpBecomes i s u
       (if b = 0xF9 ∨ b = 0xFD then [] else if u.cfgEmit then [.packet (t1 u.cfgGroup b 0 0)] else []))

/-- 42_byte_stream_parser.md R196: a channel-voice status outside system exclusive begins a message, with the data count of
R191, and sets running status.
That the byte rows do this too is the model's choice (log 8). -/
def Obligations.BpChannelVoiceStatus : Prop :=
  ∀ (i : Instr) (b : Byte) (s : State), byteOf i = some b → s.target.unit = .bp →
    (s.bpAt s.target.idx).sx = false → 0x80 ≤ b.toNat → b.toNat ≤ 0xEF →
    BpBecomes i s { s.bpAt s.target.idx with
      st := some b, rs := some b, need := if 0xC0 ≤ b.toNat ∧ b.toNat ≤ 0xDF then 1 else 2
      cur := 0, d0 := 0, d1 := 0 } []

/-- 42_byte_stream_parser.md R195 and R201: a data byte outside system exclusive, in each situation the invariant of
10_state.md R41 allows: ignored, stored as the first of two, completing a message, and the same under running
status.
That the byte rows do this too is the model's choice (log 8). -/
def Obligations.BpDataByte : Prop :=
  ∀ (i : Instr) (b : Byte) (s : State), byteOf i = some b → s.target.unit = .bp →
    (s.bpAt s.target.idx).sx = false → b.toNat < 0x80 →
    (let u := s.bpAt s.target.idx
     let done (q d1 d2 : Byte) : List Event :=
       if u.cfgEmit then [.packet (if q.toNat ≤ 0xEF then t2 u.cfgGroup q d1 d2 else t1 u.cfgGroup q d1 d2)] else []
     let cleared : Bp := { u with st := none, need := 0, cur := 0, d0 := 0, d1 := 0 }
     (u.st = none → u.rs = none → BpBecomes i s u []) ∧
     (∀ q, u.st = some q → dataCount q = 2 → u.need = 2 → u.cur = 0 →
       BpBecomes i s { u with d0 := b, cur := 1, need := 1 } []) ∧
     (∀ q, u.st = some q → dataCount q = 2 → u.need = 1 → u.cur = 1 → BpBecomes i s cleared (done q u.d0 b)) ∧
     (∀ q, u.st = some q → dataCount q = 1 → u.need = 1 → u.cur = 0 → BpBecomes i s cleared (done q b 0)) ∧
     (∀ q, u.st = none → u.rs = some q → dataCount q = 2 →
       BpBecomes i s { u with st := some q, need := 1, cur := 1, d0 := b, d1 := 0 } []) ∧
     ∀ q, u.st = none → u.rs = some q → dataCount q = 1 → BpBecomes i s cleared (done q b 0))

/-- 42_byte_stream_parser.md R197 to R200: the other status bytes outside system exclusive. 0xF1, 0xF2 and 0xF3 begin a
system-common message, 0xF6 is emitted at once, 0xF4, 0xF5 and a stray 0xF7 end what is pending, 0xF0 starts
system exclusive, and all of them clear running status.
That the byte rows do this too is the model's choice (log 8). -/
def Obligations.BpSystemStatus : Prop :=
  ∀ (i : Instr) (b : Byte) (s : State), byteOf i = some b → s.target.unit = .bp → (s.bpAt s.target.idx).sx = false →
    (let u := s.bpAt s.target.idx
     let cleared : Bp := { u with st := none, need := 0, cur := 0, d0 := 0, d1 := 0, rs := none }
     (b = 0xF1 ∨ b = 0xF3 → BpBecomes i s { cleared with st := some b, need := 1 } []) ∧
     (b = 0xF2 → BpBecomes i s { cleared with st := some b, need := 2 } []) ∧
     (b = 0xF6 → BpBecomes i s cleared (if u.cfgEmit then [.packet (t1 u.cfgGroup 0xF6 0 0)] else [])) ∧
     (b = 0xF4 ∨ b = 0xF5 ∨ b = 0xF7 → BpBecomes i s cleared []) ∧
     (b = 0xF0 → BpBecomes i s { cleared with sx := true, fb := [], ffirst := true, acc := ⟨0, 0, []⟩ } []))

/-- 42_byte_stream_parser.md R202: a data byte during system exclusive in PACKETS mode; a full fragment goes out when a
seventh byte arrives.
That the byte rows do this too is the model's choice (log 8). -/
def Obligations.BpAppendPackets : Prop :=
  ∀ (i : Instr) (b : Byte) (s : State), byteOf i = some b → s.target.unit = .bp → b.toNat < 0x80 →
    (let u := s.bpAt s.target.idx
     u.sx = true → u.cfgMode = .packets →
     (u.fb.length ≠ 6 → BpBecomes i s { u with fb := u.fb ++ [b] } []) ∧
     (u.fb.length = 6 → BpBecomes i s { u with ffirst := false, fb := [b] }
       (if u.cfgEmit then [.packet (t3 u.cfgGroup (if u.ffirst then .start else .cont) u.fb)] else [])))

/-- 42_byte_stream_parser.md R203 with 43_fragment_collectors.md R240: a data byte during system exclusive in PAYLOAD mode is an id byte or is
appended; an append past `BP_BUF_CAP` is refused.
That the byte rows do this too is the model's choice (log 8). -/
def Obligations.BpAppendPayload : Prop :=
  ∀ (i : Instr) (b : Byte) (s : State), byteOf i = some b → s.target.unit = .bp → b.toNat < 0x80 →
    (let u := s.bpAt s.target.idx
     u.sx = true → u.cfgMode = .payload →
     (u.acc.mc = 0 → BpBecomes i s
       { u with acc := ⟨if b = 0 then 1 else 3, BitVec.ofNat 24 (b.toNat * 2 ^ 16), u.acc.buf⟩ } []) ∧
     (u.acc.mc = 1 → BpBecomes i s
       { u with acc := ⟨2, u.acc.mid ||| BitVec.ofNat 24 (b.toNat * 2 ^ 8), u.acc.buf⟩ } []) ∧
     (u.acc.mc = 2 → BpBecomes i s { u with acc := ⟨3, u.acc.mid ||| BitVec.ofNat 24 b.toNat, u.acc.buf⟩ } []) ∧
     (u.acc.mc = 3 → (∀ c, s.params.bpBufCap = some c → u.acc.buf.length < c) →
       BpBecomes i s { u with acc := ⟨3, u.acc.mid, u.acc.buf ++ [b]⟩ } []) ∧
     (u.acc.mc = 3 → ∀ c, s.params.bpBufCap = some c → c ≤ u.acc.buf.length → Refuses i s .bufOverflow))

/-- 42_byte_stream_parser.md R204: 0xF7 during system exclusive delivers the held fragment, retagged COMPLETE or END, or the
payload, and clears the system-exclusive fields.
That the byte rows do this too is the model's choice (log 8). -/
def Obligations.BpSysexFinish : Prop :=
  ∀ (i : Instr) (s : State), byteOf i = some 0xF7 → s.target.unit = .bp →
    (let u := s.bpAt s.target.idx
     u.sx = true → BpBecomes i s { u with sx := false, fb := [], ffirst := true, acc := ⟨0, 0, []⟩ }
       (if u.cfgEmit then
          [if u.cfgMode = .packets then .packet (t3 u.cfgGroup (if u.ffirst then .complete else .end_) u.fb)
            else .payload u.acc.mid u.acc.buf none]
        else []))

/-- 42_byte_stream_parser.md R194 and R205: any other status byte below 0xF8 cancels the payload without an event and is then
interpreted as if no system exclusive had been in progress.
That the byte rows do this too is the model's choice (log 8). -/
def Obligations.BpSysexCancel : Prop :=
  ∀ (i : Instr) (b : Byte) (s : State), byteOf i = some b → s.target.unit = .bp →
    0x80 ≤ b.toNat → b.toNat < 0xF8 → b ≠ 0xF7 →
    (let u := s.bpAt s.target.idx
     let cancelled : Bp := { u with sx := false, fb := [], ffirst := true, acc := ⟨0, 0, []⟩ }
     u.sx = true → ∃ u' ev, BpBecomes i s u' ev ∧ BpBecomes i (s.setBp s.target.idx cancelled) u' ev)

/-- 10_state.md R40: with `cfg_emit` = 0 a byte has the same effect on the parser's other fields, and is refused in the same
cases, as with `cfg_emit` = 1, but emits nothing.
That the byte rows do this too is the model's choice (log 8). -/
def Obligations.BpSuppressionKeepsParsing : Prop :=
  ∀ (i : Instr) (b : Byte) (s : State), byteOf i = some b → s.target.unit = .bp →
    (let u := s.bpAt s.target.idx
     let loud := s.setBp s.target.idx { u with cfgEmit := true }
     u.cfgEmit = false →
     (∃ u' ev, BpBecomes i s u' [] ∧ BpBecomes i loud { u' with cfgEmit := true } ev) ∨
     ∃ r, Refuses i s r ∧ Refuses i loud r)

/-- 42_byte_stream_parser.md R206 and 43_fragment_collectors.md R256: `BP.CFG` writes the three configuration fields and nothing else, and is
refused when it would change the mode during system exclusive; `FC8.CFG` writes the cap. -/
def Obligations.ConfigurationCommands : Prop :=
  (∀ (g : BitVec 4) (e m : BitVec 1) (s : State), s.target.unit = .bp →
    encode (.bpCfg g e m) = .cmd 0x22 [.num g.toNat, .num e.toNat, .num m.toNat] ∧
    (let u := s.bpAt s.target.idx
     let mode : SysexMode := if m = 1 then .payload else .packets
     (u.sx = true ∧ mode ≠ u.cfgMode → Refuses (.bpCfg g e m) s .modeChangeInSysex) ∧
     (u.sx = false ∨ mode = u.cfgMode →
       BpBecomes (.bpCfg g e m) s { u with cfgGroup := g, cfgEmit := decide (e = 1), cfgMode := mode } []))) ∧
  ∀ (m : Option Nat) (s : State), s.target.unit = .fc8 →
    encode (.fc8Cfg m) = .cmd 0x42 [.limit m] ∧
    Fc8Becomes (.fc8Cfg m) s { s.fc8At s.target.idx with max := m } []

/-- 42_byte_stream_parser.md R207, 43_fragment_collectors.md R248 and R254, 44_jitter_clock_follower.md R294, 70_reset_and_hazards.md R342: the four reset commands
give the power-on state of R340, but for BP's configuration and FC8's cap, which are kept. -/
def Obligations.ResetCommands : Prop :=
  (∀ s : State, s.target.unit = .bp → encode .bpReset = .cmd 0x21 [] ∧
    (let u := s.bpAt s.target.idx
     BpBecomes .bpReset s { State.reset.bpAt 0 with cfgGroup := u.cfgGroup, cfgEmit := u.cfgEmit, cfgMode := u.cfgMode } [])) ∧
  (∀ s : State, s.target.unit = .fc7 → encode .fc7Reset = .cmd 0x31 [] ∧
    Fc7Becomes .fc7Reset s (State.reset.fc7At 0) []) ∧
  (∀ s : State, s.target.unit = .fc8 → encode .fc8Reset = .cmd 0x41 [] ∧
    Fc8Becomes .fc8Reset s { State.reset.fc8At 0 with max := (s.fc8At s.target.idx).max } []) ∧
  ∀ s : State, s.target.unit = .jr → encode .jrReset = .cmd 0x62 [] ∧
    JrBecomes .jrReset s { State.reset.jrAt 0 with sec := s.params.jrInitSec } none

/-- 42_byte_stream_parser.md R209: running status. A stream with the second status byte omitted emits the same packets and
leaves the same state as the full one, for statuses with two data bytes and with one. -/
def Obligations.RunningStatusEquivalence : Prop :=
  ∀ (s : State) (st a b c e : Byte), s.target.unit = .bp → (s.bpAt s.target.idx).sx = false →
    0x80 ≤ st.toNat → st.toNat ≤ 0xEF → a.toNat < 0x80 → b.toNat < 0x80 → c.toNat < 0x80 → e.toNat < 0x80 →
    (let u := s.bpAt s.target.idx
     let same (short full : Bytes) (ev : List Event) : Prop := ∃ t t',
       runAll (feedN short) s = .next t ∧ runAll (feedN full) s = .next t' ∧ SameUnits t t' ∧
       eventsOf t.responses = eventsOf s.responses ++ (if u.cfgEmit then ev else []) ∧
       eventsOf t'.responses = eventsOf s.responses ++ (if u.cfgEmit then ev else [])
     (dataCount st = 2 → same [st, a, b, c, e] [st, a, b, st, c, e]
       [.packet (t2 u.cfgGroup st a b), .packet (t2 u.cfgGroup st c e)]) ∧
     (dataCount st = 1 → same [st, a, c] [st, a, st, c]
       [.packet (t2 u.cfgGroup st a 0), .packet (t2 u.cfgGroup st c 0)]))

/-- 42_byte_stream_parser.md R210: a real-time byte at any position of a byte stream adds its packet at that position and
changes nothing else; 0xF9 and 0xFD change nothing at all. -/
def Obligations.RealTimeTransparency : Prop :=
  ∀ (s : State) (xs ys : Bytes) (r : Byte), s.target.unit = .bp → 0xF8 ≤ r.toNat →
    (let u := s.bpAt s.target.idx
     ∃ m t t' ev, runAll (feedN xs) s = .next m ∧ runAll (feedN (xs ++ ys)) s = .next t ∧
       runAll (feedN (xs ++ r :: ys)) s = .next t' ∧ SameUnits t t' ∧ t.refusedMark = t'.refusedMark ∧
       eventsOf t.responses = eventsOf m.responses ++ ev ∧
       eventsOf t'.responses = eventsOf m.responses ++
         (if r ≠ 0xF9 ∧ r ≠ 0xFD ∧ u.cfgEmit = true then [.packet (t1 u.cfgGroup r 0 0)] else []) ++ ev)

/-! ## FC7, FC8, SX, FR7 and FR8. `fragment7Of i = some p` says that `i` is `FC7.FEED p` or the T3 row of `p`, and
`fragment8Of i = some p` that it is `FC8.FEED p` or the T5 row of `p` (log 8) -/

/-- 43_fragment_collectors.md R246 and R247: what is no fragment is ignored, a lone CONT or END is dropped, a COMPLETE or START begins
anew, an accepted fragment's bytes are routed, a COMPLETE or END delivers, and an append past the capacity
refuses the whole command.
That the fragment rows do this too is the model's choice (log 8). -/
def Obligations.Fc7Feed : Prop :=
  ∀ (i : Instr) (p : Packet) (s : State), fragment7Of i = some p → s.target.unit = .fc7 →
    (let u := s.fc7At s.target.idx
     let kind := p.w0.toNat / 2 ^ 20 % 16
     let count := p.w0.toNat / 2 ^ 16 % 16
     let recognized : Prop := p.w0.toNat / 2 ^ 28 = 3 ∧ kind ≤ 3 ∧ count ≤ 6
     let bytes : Bytes := (List.range count).map fun j => (packetBits p).extractLsb' (120 - 8 * (2 + j)) 8
     let start : Accum := if kind ≤ 1 then ⟨0, 0, []⟩ else u.acc
     (¬ recognized → Fc7Becomes i s u []) ∧
     (recognized → 2 ≤ kind → u.ph = .idle → Fc7Becomes i s u []) ∧
     (recognized → (kind ≤ 1 ∨ u.ph = .cont) →
       (∀ a, route7All s.params.fc7BufCap bytes start = .ok a →
         (kind = 1 ∨ kind = 2 → Fc7Becomes i s ⟨.cont, a⟩ []) ∧
         (kind = 0 ∨ kind = 3 → Fc7Becomes i s ⟨.idle, ⟨0, 0, []⟩⟩ [.payload a.mid a.buf none])) ∧
       ∀ r, route7All s.params.fc7BufCap bytes start = .refuse r → Refuses i s r))

/-- 43_fragment_collectors.md R249 to R251: the same for the eight-bit collector, with the stream id of byte 2: a packet of a foreign stream
in phase CONT is ignored, a START included.
That the fragment rows do this too is the model's choice (log 8). -/
def Obligations.Fc8Feed : Prop :=
  ∀ (i : Instr) (p : Packet) (s : State), fragment8Of i = some p → s.target.unit = .fc8 →
    (let u := s.fc8At s.target.idx
     let kind := p.w0.toNat / 2 ^ 20 % 16
     let count := p.w0.toNat / 2 ^ 16 % 16
     let sid : Byte := (packetBits p).extractLsb' 104 8
     let recognized : Prop := p.w0.toNat / 2 ^ 28 = 5 ∧ kind ≤ 3 ∧ 1 ≤ count ∧ count ≤ 14
     let bytes : Bytes := (List.range (count - 1)).map fun j => (packetBits p).extractLsb' (120 - 8 * (3 + j)) 8
     let start : Accum × Bool := if kind ≤ 1 then (⟨0, 0, []⟩, false) else (u.acc, u.tr)
     let a := route8All u.max bytes start
     (¬ recognized → Fc8Becomes i s u []) ∧
     (recognized → 2 ≤ kind → u.ph = .idle → Fc8Becomes i s u []) ∧
     (recognized → u.ph = .cont → sid ≠ u.act → Fc8Becomes i s u []) ∧
     (recognized → (u.ph = .cont ∧ sid = u.act ∨ u.ph = .idle ∧ kind ≤ 1) →
       (kind = 1 ∨ kind = 2 → Fc8Becomes i s { u with ph := .cont, acc := a.1, act := sid, tr := a.2 } []) ∧
       (kind = 0 ∨ kind = 3 → Fc8Becomes i s { u with ph := .idle, acc := ⟨0, 0, []⟩, act := sid, tr := false }
         [.payload a.1.mid a.1.buf (if s.params.fc8TruncFlag then some a.2 else none)])))

/-- 43_fragment_collectors.md R240, R252 and R253: routing the bytes of a whole payload splits off the manufacturer id; the seven-bit
routing masks data bytes and refuses past its capacity, the eight-bit one keeps them raw and drops those
past its cap, which it marks. -/
def Obligations.RoutingSplitsTheId : Prop :=
  ∀ (l : Bytes) (c : Nat),
    route7All none l ⟨0, 0, []⟩ = .ok (idSplit mask7 l) ∧
    route7All (some c) l ⟨0, 0, []⟩ =
      (if (idSplit mask7 l).buf.length ≤ c then .ok (idSplit mask7 l) else .refuse .bufOverflow) ∧
    route8All none l (⟨0, 0, []⟩, false) = (idSplit id l, false) ∧
    route8All (some c) l (⟨0, 0, []⟩, false) =
      ({ idSplit id l with buf := (idSplit id l).buf.take c }, decide (c < (idSplit id l).buf.length))

/-- 43_fragment_collectors.md R243 to R245: the payload predicates, whatever the id, and the total size. -/
def Obligations.SysexQueries : Prop :=
  ∀ (mid : BitVec 24) (l : Bytes) (s : State), s.target.unit = .sx →
    encode (.sxIs7 mid l) = .cmd 0x50 [.num mid.toNat, .bytes l] ∧
    encode (.sxIs8 mid l) = .cmd 0x51 [.num mid.toNat, .bytes l] ∧
    encode (.sxTotal mid l) = .cmd 0x52 [.num mid.toNat, .bytes l] ∧
    Answers (.sxIs7 mid l) s (.bit (decide (∀ b ∈ l, b.toNat < 0x80))) ∧
    Answers (.sxIs8 mid l) s (.bit (decide (∃ b ∈ l, 0x80 ≤ b.toNat))) ∧
    Answers (.sxTotal mid l) s
      (.nat (if mid.toNat = 0 then l.length else if 2 ^ 16 ≤ mid.toNat then l.length + 1 else l.length + 3))

/-- 43_fragment_collectors.md R255 and R257: a fragmenter refuses an id that is not canonical with `NONCANONICAL_ID`; else its packets
carry the group (and the stream id), hold the id bytes and the data in order, six (thirteen) in every packet
but the last, are 0 in every byte past them, and are one COMPLETE, or a START, CONTs and an END. -/
def Obligations.FragmentersSplitThePayload : Prop :=
  ∀ (mid : BitVec 24) (l : Bytes) (g : BitVec 4) (sid : Byte) (s : State), s.target.unit = .sx →
    (let canonical : Prop := ¬ (2 ^ 16 ≤ mid.toNat ∧ mid.toNat % 2 ^ 16 ≠ 0) ∧ ∀ b ∈ idBytes mid, b.toNat < 0x80
     let kinds (n : Nat) : List (BitVec 4) := if n = 1 then [0] else 1 :: (List.replicate (n - 2) 2 ++ [3])
     encode (.fr7Frag mid l g) = .cmd 0x53 [.num mid.toNat, .bytes l, .num g.toNat] ∧
     encode (.fr8Frag mid l g sid) = .cmd 0x54 [.num mid.toNat, .bytes l, .num g.toNat, .num sid.toNat] ∧
     (¬ canonical → Faults (.fr7Frag mid l g) s .noncanonicalId ∧ Faults (.fr8Frag mid l g sid) s .noncanonicalId) ∧
     (canonical →
       (∃ ps : List Packet, Answers (.fr7Frag mid l g) s (.packets ps) ∧ ps.map kindOf = kinds ps.length ∧
         ps.flatMap (fun p => dataBytes p 2 (countOf p).toNat) = idBytes mid ++ l.map mask7 ∧
         (∀ p ∈ ps, tagOf p = 3 ∧ groupOf p = g ∧ (countOf p).toNat ≤ 6 ∧ (1 < ps.length → 1 ≤ (countOf p).toNat) ∧
           ∀ j, 2 + (countOf p).toNat ≤ j → j < 16 → getByte p j = 0) ∧
         ∀ p ∈ ps.dropLast, (countOf p).toNat = 6) ∧
       ∃ ps : List Packet, Answers (.fr8Frag mid l g sid) s (.packets ps) ∧ ps.map kindOf = kinds ps.length ∧
         ps.flatMap (fun p => dataBytes p 3 ((countOf p).toNat - 1)) = idBytes mid ++ l ∧
         (∀ p ∈ ps, tagOf p = 5 ∧ groupOf p = g ∧ getByte p 2 = sid ∧ 1 ≤ (countOf p).toNat ∧ (countOf p).toNat ≤ 14 ∧
           (1 < ps.length → 2 ≤ (countOf p).toNat) ∧ ∀ j, 2 + (countOf p).toNat ≤ j → j < 16 → getByte p j = 0) ∧
         ∀ p ∈ ps.dropLast, (countOf p).toNat = 14))

/-- 43_fragment_collectors.md R259, first half: the packets of `FR7.FRAG` fed to a seven-bit collector in IDLE deliver exactly the payload, on
the last packet, and leave it in IDLE. -/
def Obligations.Fc7RoundTrip : Prop :=
  ∀ (mid : BitVec 24) (l : Bytes) (g : BitVec 4) (s : State),
    mid ≠ 0 → canonicalId mid = true → SevenBit l → s.target.unit = .fc7 → (s.fc7At s.target.idx).ph = .idle →
    WithinCap s.params.fc7BufCap l.length →
    ∃ (ps : List Packet) (t : State),
      (∀ s0 : State, s0.target.unit = .sx → Answers (.fr7Frag mid l g) s0 (.packets ps)) ∧
      runAll (ps.map .fc7Feed) s = .next t ∧ t.fc7At s.target.idx = ⟨.idle, ⟨0, 0, []⟩⟩ ∧
      (∀ m, m ≠ s.target.idx → t.fc7At m = s.fc7At m) ∧
      t.responses = s.responses ++ List.replicate (ps.length - 1) ⟨.ok, none, []⟩ ++
        [⟨.ok, none, [.payload mid l none]⟩]

/-- 43_fragment_collectors.md R259, second half: the same for `FR8.FRAG` and an eight-bit collector whose cap is absent or large enough. -/
def Obligations.Fc8RoundTrip : Prop :=
  ∀ (mid : BitVec 24) (l : Bytes) (g : BitVec 4) (sid : Byte) (s : State),
    mid ≠ 0 → canonicalId mid = true → s.target.unit = .fc8 → (s.fc8At s.target.idx).ph = .idle →
    WithinCap (s.fc8At s.target.idx).max l.length →
    ∃ (ps : List Packet) (t : State),
      (∀ s0 : State, s0.target.unit = .sx → Answers (.fr8Frag mid l g sid) s0 (.packets ps)) ∧
      runAll (ps.map .fc8Feed) s = .next t ∧ (t.fc8At s.target.idx).ph = .idle ∧
      (∀ m, m ≠ s.target.idx → t.fc8At m = s.fc8At m) ∧
      t.responses = s.responses ++ List.replicate (ps.length - 1) ⟨.ok, none, []⟩ ++
        [⟨.ok, none, [.payload mid l (if s.params.fc8TruncFlag then some false else none)]⟩]

/-- 43_fragment_collectors.md R260: packets of foreign streams between the packets of `FR8.FRAG`, after its first, are ignored: the collector
still emits exactly the payload, on the message's last packet. -/
def Obligations.ForeignStreamsAreIgnored : Prop :=
  ∀ (mid : BitVec 24) (l : Bytes) (g : BitVec 4) (sid : Byte) (s : State) (first last : Packet) (inner ys : List Packet),
    mid ≠ 0 → canonicalId mid = true → s.target.unit = .fc8 → (s.fc8At s.target.idx).ph = .idle →
    WithinCap (s.fc8At s.target.idx).max l.length →
    (∀ s0 : State, s0.target.unit = .sx →
      Answers (.fr8Frag mid l g sid) s0 (.packets (first :: (inner ++ [last])))) →
    (ys.filter fun p => getByte p 2 == sid) = inner →
    ∃ t : State, runAll ((first :: (ys ++ [last])).map .fc8Feed) s = .next t ∧ (t.fc8At s.target.idx).ph = .idle ∧
      t.responses = s.responses ++ List.replicate (ys.length + 1) ⟨.ok, none, []⟩ ++
        [⟨.ok, none, [.payload mid l (if s.params.fc8TruncFlag then some false else none)]⟩]

/-! ## JR -/

/-- 44_jitter_clock_follower.md R292, first call: the first sync records the reference and touches nothing else; a time that does not
fit a finite width is refused (log 12). -/
def Obligations.JrFirstSync : Prop :=
  ∀ (t : Nat) (ts : BitVec 16) (s : State), s.target.unit = .jr → (s.jrAt s.target.idx).init = false →
    (Fits s.params t → JrBecomes (.jrSync t ts) s { s.jrAt s.target.idx with init := true, ref := t, lts := ts } none) ∧
    (¬ Fits s.params t → Refuses (.jrSync t ts) s .timeOverflow)

/-- 44_jitter_clock_follower.md R291, R292, R295 and R296: a later sync, with the jitter sample worked out in naturals: an early one (`t < e`)
rebases the reference to the arrival and adds its magnitude to a smaller jitter; another one advances the
reference to the expected time and raises the jitter to the sample; the watermark, the last timestamp and
the security offset follow. When a value does not fit a finite width the command is refused (log 12). -/
def Obligations.JrLaterSync : Prop :=
  ∀ (t : Nat) (ts : BitVec 16) (s : State), s.target.unit = .jr → (s.jrAt s.target.idx).init = true →
    (let u := s.jrAt s.target.idx
     let c := s.params
     let e := u.ref + c.jrTick * deltaNat ts u.lts
     let jit := if t < e then (if u.jit < e - t then u.jit + (e - t) else u.jit)
       else if u.jit < t - e then t - e else u.jit
     let sec := if u.jit < jit then max u.sec (jit * c.jrMarginNum / c.jrMarginDen) else u.sec
     let fit : Prop := Fits c t ∧ Fits c e ∧ Fits c (max u.wm t) ∧ Fits c jit ∧ Fits c sec
     (fit → JrBecomes (.jrSync t ts) s
       { init := true, lts := ts, ref := if t < e then t else e, wm := max u.wm t, jit := jit, sec := sec } none) ∧
     (¬ fit → Refuses (.jrSync t ts) s .timeOverflow))

/-- 44_jitter_clock_follower.md R293: after a sync, `JR.SCHED` raises the watermark to the candidate and returns it with the security offset,
whatever `t` is; before any sync it returns some time and changes no instance (the time is a free value,
log 11); a candidate or result that does not fit a finite width is refused (log 12). -/
def Obligations.JrSchedule : Prop :=
  ∀ (t : Nat) (ts : BitVec 16) (s : State), s.target.unit = .jr →
    (let u := s.jrAt s.target.idx
     let c := u.ref + s.params.jrTick * deltaNat ts u.lts
     (u.init = true → Fits s.params c → Fits s.params (max u.wm c + u.sec) →
       JrBecomes (.jrSched t ts) s { u with wm := max u.wm c } (some (.time (max u.wm c + u.sec)))) ∧
     (u.init = true → ¬ (Fits s.params c ∧ Fits s.params (max u.wm c + u.sec)) →
       Refuses (.jrSched t ts) s .timeOverflow) ∧
     (u.init = false → ∃ x, Fits s.params x ∧ exec (.jrSched t ts) s =
       .next { s with draws := s.draws + 1, responses := s.responses ++ [⟨.ok, some (.time x), []⟩] }))

/-- 44_jitter_clock_follower.md R297: once a sync has been processed, the results of the successive `JR.SCHED` commands of any sequence of
`JR.SYNC` and `JR.SCHED` are non-decreasing. -/
def Obligations.ScheduleIsNonDecreasing : Prop :=
  ∀ (cmds : List Instr) (s t : State), s.target.unit = .jr → (s.jrAt s.target.idx).init = true →
    (∀ i ∈ cmds, (∃ a ts, i = .jrSync a ts) ∨ ∃ a ts, i = .jrSched a ts) → runAll cmds s = .next t →
    (timesOf (t.responses.drop s.responses.length)).Pairwise (· ≤ ·)

/-- 44_jitter_clock_follower.md R298: syncs whose timestamps advance by a constant number of ticks and arrive exactly that far apart leave
the jitter at 0 and the security offset at its floor (times unbounded). -/
def Obligations.RegularClockHasNoJitter : Prop :=
  ∀ (t0 : Nat) (ts0 step : BitVec 16) (n : Nat) (s : State), s.target.unit = .jr → s.params.jrTimeW = none →
    s.jrAt s.target.idx = { init := false, lts := 0, ref := 0, wm := 0, jit := 0, sec := s.params.jrInitSec } →
    ∃ t, runAll ((List.range (n + 1)).map fun k =>
        .jrSync (t0 + k * (s.params.jrTick * step.toNat)) (ts0 + BitVec.ofNat 16 k * step)) s = .next t ∧
      (t.jrAt s.target.idx).init = true ∧ (t.jrAt s.target.idx).jit = 0 ∧
      (t.jrAt s.target.idx).sec = s.params.jrInitSec ∧
      (t.jrAt s.target.idx).ref = t0 + n * (s.params.jrTick * step.toNat)

/-- 44_jitter_clock_follower.md R292, R293, R295 and R296: no step but one that runs `JR.RESET` lowers the watermark, the tracked jitter or the
security offset of any clock follower. -/
def Obligations.WatermarkAndOffsetOnlyGrow : Prop :=
  ∀ (i : Instr) (s t : State), i ≠ .jrReset → exec i s = .next t → ∀ n,
    (s.jrAt n).wm ≤ (t.jrAt n).wm ∧ (s.jrAt n).jit ≤ (t.jrAt n).jit ∧ (s.jrAt n).sec ≤ (t.jrAt n).sec
end

