-- ==== Sys2Proof/Laws/State.lean ====
section
/-! SUPPORT. What each update of the state does to each field, and to each instance, true by definition. -/

namespace Sys2Proof.Machine

@[simp] theorem State.respond_params (s : State) (r : Response) : (s.respond r).params = s.params := rfl
@[simp] theorem State.respond_inbox (s : State) (r : Response) : (s.respond r).inbox = s.inbox := rfl
@[simp] theorem State.respond_target (s : State) (r : Response) : (s.respond r).target = s.target := rfl
@[simp] theorem State.respond_bp (s : State) (r : Response) : (s.respond r).bp = s.bp := rfl
@[simp] theorem State.respond_fc7 (s : State) (r : Response) : (s.respond r).fc7 = s.fc7 := rfl
@[simp] theorem State.respond_fc8 (s : State) (r : Response) : (s.respond r).fc8 = s.fc8 := rfl
@[simp] theorem State.respond_jr (s : State) (r : Response) : (s.respond r).jr = s.jr := rfl
@[simp] theorem State.respond_faultRec (s : State) (r : Response) : (s.respond r).faultRec = s.faultRec := rfl
@[simp] theorem State.respond_refusedMark (s : State) (r : Response) : (s.respond r).refusedMark = s.refusedMark := rfl
@[simp] theorem State.respond_responses (s : State) (r : Response) : (s.respond r).responses = s.responses ++ [r] := rfl
@[simp] theorem State.respond_draws (s : State) (r : Response) : (s.respond r).draws = s.draws := rfl
@[simp] theorem State.respond_bpAt (s : State) (r : Response) (m : Nat) : (s.respond r).bpAt m = s.bpAt m := rfl
@[simp] theorem State.respond_fc7At (s : State) (r : Response) (m : Nat) : (s.respond r).fc7At m = s.fc7At m := rfl
@[simp] theorem State.respond_fc8At (s : State) (r : Response) (m : Nat) : (s.respond r).fc8At m = s.fc8At m := rfl
@[simp] theorem State.respond_jrAt (s : State) (r : Response) (m : Nat) : (s.respond r).jrAt m = s.jrAt m := rfl

@[simp] theorem State.finish_params (s : State) (v : Option Result) (ev : List Event) : (s.finish v ev).params = s.params := rfl
@[simp] theorem State.finish_inbox (s : State) (v : Option Result) (ev : List Event) : (s.finish v ev).inbox = s.inbox := rfl
@[simp] theorem State.finish_target (s : State) (v : Option Result) (ev : List Event) : (s.finish v ev).target = s.target := rfl
@[simp] theorem State.finish_bp (s : State) (v : Option Result) (ev : List Event) : (s.finish v ev).bp = s.bp := rfl
@[simp] theorem State.finish_fc7 (s : State) (v : Option Result) (ev : List Event) : (s.finish v ev).fc7 = s.fc7 := rfl
@[simp] theorem State.finish_fc8 (s : State) (v : Option Result) (ev : List Event) : (s.finish v ev).fc8 = s.fc8 := rfl
@[simp] theorem State.finish_jr (s : State) (v : Option Result) (ev : List Event) : (s.finish v ev).jr = s.jr := rfl
@[simp] theorem State.finish_faultRec (s : State) (v : Option Result) (ev : List Event) : (s.finish v ev).faultRec = s.faultRec := rfl
@[simp] theorem State.finish_refusedMark (s : State) (v : Option Result) (ev : List Event) : (s.finish v ev).refusedMark = s.refusedMark := rfl
@[simp] theorem State.finish_responses (s : State) (v : Option Result) (ev : List Event) : (s.finish v ev).responses = s.responses ++ [⟨.ok, v, ev⟩] := rfl
@[simp] theorem State.finish_draws (s : State) (v : Option Result) (ev : List Event) : (s.finish v ev).draws = s.draws := rfl
@[simp] theorem State.finish_bpAt (s : State) (v : Option Result) (ev : List Event) (m : Nat) : (s.finish v ev).bpAt m = s.bpAt m := rfl
@[simp] theorem State.finish_fc7At (s : State) (v : Option Result) (ev : List Event) (m : Nat) : (s.finish v ev).fc7At m = s.fc7At m := rfl
@[simp] theorem State.finish_fc8At (s : State) (v : Option Result) (ev : List Event) (m : Nat) : (s.finish v ev).fc8At m = s.fc8At m := rfl
@[simp] theorem State.finish_jrAt (s : State) (v : Option Result) (ev : List Event) (m : Nat) : (s.finish v ev).jrAt m = s.jrAt m := rfl

@[simp] theorem State.raise_params (s : State) (r : FaultReason) : (s.raise r).params = s.params := rfl
@[simp] theorem State.raise_inbox (s : State) (r : FaultReason) : (s.raise r).inbox = s.inbox := rfl
@[simp] theorem State.raise_target (s : State) (r : FaultReason) : (s.raise r).target = s.target := rfl
@[simp] theorem State.raise_bp (s : State) (r : FaultReason) : (s.raise r).bp = s.bp := rfl
@[simp] theorem State.raise_fc7 (s : State) (r : FaultReason) : (s.raise r).fc7 = s.fc7 := rfl
@[simp] theorem State.raise_fc8 (s : State) (r : FaultReason) : (s.raise r).fc8 = s.fc8 := rfl
@[simp] theorem State.raise_jr (s : State) (r : FaultReason) : (s.raise r).jr = s.jr := rfl
@[simp] theorem State.raise_faultRec (s : State) (r : FaultReason) : (s.raise r).faultRec = some r := rfl
@[simp] theorem State.raise_refusedMark (s : State) (r : FaultReason) : (s.raise r).refusedMark = s.refusedMark := rfl
@[simp] theorem State.raise_responses (s : State) (r : FaultReason) : (s.raise r).responses = s.responses ++ [⟨.fault r, none, []⟩] := rfl
@[simp] theorem State.raise_draws (s : State) (r : FaultReason) : (s.raise r).draws = s.draws := rfl
@[simp] theorem State.raise_bpAt (s : State) (r : FaultReason) (m : Nat) : (s.raise r).bpAt m = s.bpAt m := rfl
@[simp] theorem State.raise_fc7At (s : State) (r : FaultReason) (m : Nat) : (s.raise r).fc7At m = s.fc7At m := rfl
@[simp] theorem State.raise_fc8At (s : State) (r : FaultReason) (m : Nat) : (s.raise r).fc8At m = s.fc8At m := rfl
@[simp] theorem State.raise_jrAt (s : State) (r : FaultReason) (m : Nat) : (s.raise r).jrAt m = s.jrAt m := rfl

@[simp] theorem State.refuse_params (s : State) (r : RefuseReason) : (s.refuse r).params = s.params := rfl
@[simp] theorem State.refuse_inbox (s : State) (r : RefuseReason) : (s.refuse r).inbox = s.inbox := rfl
@[simp] theorem State.refuse_target (s : State) (r : RefuseReason) : (s.refuse r).target = s.target := rfl
@[simp] theorem State.refuse_bp (s : State) (r : RefuseReason) : (s.refuse r).bp = s.bp := rfl
@[simp] theorem State.refuse_fc7 (s : State) (r : RefuseReason) : (s.refuse r).fc7 = s.fc7 := rfl
@[simp] theorem State.refuse_fc8 (s : State) (r : RefuseReason) : (s.refuse r).fc8 = s.fc8 := rfl
@[simp] theorem State.refuse_jr (s : State) (r : RefuseReason) : (s.refuse r).jr = s.jr := rfl
@[simp] theorem State.refuse_faultRec (s : State) (r : RefuseReason) : (s.refuse r).faultRec = s.faultRec := rfl
@[simp] theorem State.refuse_refusedMark (s : State) (r : RefuseReason) : (s.refuse r).refusedMark = true := rfl
@[simp] theorem State.refuse_responses (s : State) (r : RefuseReason) : (s.refuse r).responses = s.responses ++ [⟨.refused r, none, []⟩] := rfl
@[simp] theorem State.refuse_draws (s : State) (r : RefuseReason) : (s.refuse r).draws = s.draws := rfl
@[simp] theorem State.refuse_bpAt (s : State) (r : RefuseReason) (m : Nat) : (s.refuse r).bpAt m = s.bpAt m := rfl
@[simp] theorem State.refuse_fc7At (s : State) (r : RefuseReason) (m : Nat) : (s.refuse r).fc7At m = s.fc7At m := rfl
@[simp] theorem State.refuse_fc8At (s : State) (r : RefuseReason) (m : Nat) : (s.refuse r).fc8At m = s.fc8At m := rfl
@[simp] theorem State.refuse_jrAt (s : State) (r : RefuseReason) (m : Nat) : (s.refuse r).jrAt m = s.jrAt m := rfl

@[simp] theorem State.drawn_params (s : State) : (s.drawn).params = s.params := rfl
@[simp] theorem State.drawn_inbox (s : State) : (s.drawn).inbox = s.inbox := rfl
@[simp] theorem State.drawn_target (s : State) : (s.drawn).target = s.target := rfl
@[simp] theorem State.drawn_bp (s : State) : (s.drawn).bp = s.bp := rfl
@[simp] theorem State.drawn_fc7 (s : State) : (s.drawn).fc7 = s.fc7 := rfl
@[simp] theorem State.drawn_fc8 (s : State) : (s.drawn).fc8 = s.fc8 := rfl
@[simp] theorem State.drawn_jr (s : State) : (s.drawn).jr = s.jr := rfl
@[simp] theorem State.drawn_faultRec (s : State) : (s.drawn).faultRec = s.faultRec := rfl
@[simp] theorem State.drawn_refusedMark (s : State) : (s.drawn).refusedMark = s.refusedMark := rfl
@[simp] theorem State.drawn_responses (s : State) : (s.drawn).responses = s.responses := rfl
@[simp] theorem State.drawn_draws (s : State) : (s.drawn).draws = s.draws + 1 := rfl
@[simp] theorem State.drawn_bpAt (s : State) (m : Nat) : (s.drawn).bpAt m = s.bpAt m := rfl
@[simp] theorem State.drawn_fc7At (s : State) (m : Nat) : (s.drawn).fc7At m = s.fc7At m := rfl
@[simp] theorem State.drawn_fc8At (s : State) (m : Nat) : (s.drawn).fc8At m = s.fc8At m := rfl
@[simp] theorem State.drawn_jrAt (s : State) (m : Nat) : (s.drawn).jrAt m = s.jrAt m := rfl

@[simp] theorem State.take_params (s : State) (f : Frame) (rest : List Frame) : (s.take f rest).params = s.params := rfl
@[simp] theorem State.take_inbox (s : State) (f : Frame) (rest : List Frame) : (s.take f rest).inbox = rest := rfl
@[simp] theorem State.take_target (s : State) (f : Frame) (rest : List Frame) : (s.take f rest).target = f.target := rfl
@[simp] theorem State.take_bp (s : State) (f : Frame) (rest : List Frame) : (s.take f rest).bp = s.bp := rfl
@[simp] theorem State.take_fc7 (s : State) (f : Frame) (rest : List Frame) : (s.take f rest).fc7 = s.fc7 := rfl
@[simp] theorem State.take_fc8 (s : State) (f : Frame) (rest : List Frame) : (s.take f rest).fc8 = s.fc8 := rfl
@[simp] theorem State.take_jr (s : State) (f : Frame) (rest : List Frame) : (s.take f rest).jr = s.jr := rfl
@[simp] theorem State.take_faultRec (s : State) (f : Frame) (rest : List Frame) : (s.take f rest).faultRec = s.faultRec := rfl
@[simp] theorem State.take_refusedMark (s : State) (f : Frame) (rest : List Frame) : (s.take f rest).refusedMark = s.refusedMark := rfl
@[simp] theorem State.take_responses (s : State) (f : Frame) (rest : List Frame) : (s.take f rest).responses = s.responses := rfl
@[simp] theorem State.take_draws (s : State) (f : Frame) (rest : List Frame) : (s.take f rest).draws = s.draws := rfl
@[simp] theorem State.take_bpAt (s : State) (f : Frame) (rest : List Frame) (m : Nat) : (s.take f rest).bpAt m = s.bpAt m := rfl
@[simp] theorem State.take_fc7At (s : State) (f : Frame) (rest : List Frame) (m : Nat) : (s.take f rest).fc7At m = s.fc7At m := rfl
@[simp] theorem State.take_fc8At (s : State) (f : Frame) (rest : List Frame) (m : Nat) : (s.take f rest).fc8At m = s.fc8At m := rfl
@[simp] theorem State.take_jrAt (s : State) (f : Frame) (rest : List Frame) (m : Nat) : (s.take f rest).jrAt m = s.jrAt m := rfl

@[simp] theorem State.setBp_params (s : State) (n : Nat) (u : Bp) : (s.setBp n u).params = s.params := rfl
@[simp] theorem State.setBp_inbox (s : State) (n : Nat) (u : Bp) : (s.setBp n u).inbox = s.inbox := rfl
@[simp] theorem State.setBp_target (s : State) (n : Nat) (u : Bp) : (s.setBp n u).target = s.target := rfl
@[simp] theorem State.setBp_bp (s : State) (n : Nat) (u : Bp) : (s.setBp n u).bp = bankSet Bp.powerOn s.bp n u := rfl
@[simp] theorem State.setBp_fc7 (s : State) (n : Nat) (u : Bp) : (s.setBp n u).fc7 = s.fc7 := rfl
@[simp] theorem State.setBp_fc8 (s : State) (n : Nat) (u : Bp) : (s.setBp n u).fc8 = s.fc8 := rfl
@[simp] theorem State.setBp_jr (s : State) (n : Nat) (u : Bp) : (s.setBp n u).jr = s.jr := rfl
@[simp] theorem State.setBp_faultRec (s : State) (n : Nat) (u : Bp) : (s.setBp n u).faultRec = s.faultRec := rfl
@[simp] theorem State.setBp_refusedMark (s : State) (n : Nat) (u : Bp) : (s.setBp n u).refusedMark = s.refusedMark := rfl
@[simp] theorem State.setBp_responses (s : State) (n : Nat) (u : Bp) : (s.setBp n u).responses = s.responses := rfl
@[simp] theorem State.setBp_draws (s : State) (n : Nat) (u : Bp) : (s.setBp n u).draws = s.draws := rfl
@[simp] theorem State.setBp_fc7At (s : State) (n : Nat) (u : Bp) (m : Nat) : (s.setBp n u).fc7At m = s.fc7At m := rfl
@[simp] theorem State.setBp_fc8At (s : State) (n : Nat) (u : Bp) (m : Nat) : (s.setBp n u).fc8At m = s.fc8At m := rfl
@[simp] theorem State.setBp_jrAt (s : State) (n : Nat) (u : Bp) (m : Nat) : (s.setBp n u).jrAt m = s.jrAt m := rfl

@[simp] theorem State.setFc7_params (s : State) (n : Nat) (u : Fc7) : (s.setFc7 n u).params = s.params := rfl
@[simp] theorem State.setFc7_inbox (s : State) (n : Nat) (u : Fc7) : (s.setFc7 n u).inbox = s.inbox := rfl
@[simp] theorem State.setFc7_target (s : State) (n : Nat) (u : Fc7) : (s.setFc7 n u).target = s.target := rfl
@[simp] theorem State.setFc7_bp (s : State) (n : Nat) (u : Fc7) : (s.setFc7 n u).bp = s.bp := rfl
@[simp] theorem State.setFc7_fc7 (s : State) (n : Nat) (u : Fc7) : (s.setFc7 n u).fc7 = bankSet Fc7.powerOn s.fc7 n u := rfl
@[simp] theorem State.setFc7_fc8 (s : State) (n : Nat) (u : Fc7) : (s.setFc7 n u).fc8 = s.fc8 := rfl
@[simp] theorem State.setFc7_jr (s : State) (n : Nat) (u : Fc7) : (s.setFc7 n u).jr = s.jr := rfl
@[simp] theorem State.setFc7_faultRec (s : State) (n : Nat) (u : Fc7) : (s.setFc7 n u).faultRec = s.faultRec := rfl
@[simp] theorem State.setFc7_refusedMark (s : State) (n : Nat) (u : Fc7) : (s.setFc7 n u).refusedMark = s.refusedMark := rfl
@[simp] theorem State.setFc7_responses (s : State) (n : Nat) (u : Fc7) : (s.setFc7 n u).responses = s.responses := rfl
@[simp] theorem State.setFc7_draws (s : State) (n : Nat) (u : Fc7) : (s.setFc7 n u).draws = s.draws := rfl
@[simp] theorem State.setFc7_bpAt (s : State) (n : Nat) (u : Fc7) (m : Nat) : (s.setFc7 n u).bpAt m = s.bpAt m := rfl
@[simp] theorem State.setFc7_fc8At (s : State) (n : Nat) (u : Fc7) (m : Nat) : (s.setFc7 n u).fc8At m = s.fc8At m := rfl
@[simp] theorem State.setFc7_jrAt (s : State) (n : Nat) (u : Fc7) (m : Nat) : (s.setFc7 n u).jrAt m = s.jrAt m := rfl

@[simp] theorem State.setFc8_params (s : State) (n : Nat) (u : Fc8) : (s.setFc8 n u).params = s.params := rfl
@[simp] theorem State.setFc8_inbox (s : State) (n : Nat) (u : Fc8) : (s.setFc8 n u).inbox = s.inbox := rfl
@[simp] theorem State.setFc8_target (s : State) (n : Nat) (u : Fc8) : (s.setFc8 n u).target = s.target := rfl
@[simp] theorem State.setFc8_bp (s : State) (n : Nat) (u : Fc8) : (s.setFc8 n u).bp = s.bp := rfl
@[simp] theorem State.setFc8_fc7 (s : State) (n : Nat) (u : Fc8) : (s.setFc8 n u).fc7 = s.fc7 := rfl
@[simp] theorem State.setFc8_fc8 (s : State) (n : Nat) (u : Fc8) : (s.setFc8 n u).fc8 = bankSet Fc8.powerOn s.fc8 n u := rfl
@[simp] theorem State.setFc8_jr (s : State) (n : Nat) (u : Fc8) : (s.setFc8 n u).jr = s.jr := rfl
@[simp] theorem State.setFc8_faultRec (s : State) (n : Nat) (u : Fc8) : (s.setFc8 n u).faultRec = s.faultRec := rfl
@[simp] theorem State.setFc8_refusedMark (s : State) (n : Nat) (u : Fc8) : (s.setFc8 n u).refusedMark = s.refusedMark := rfl
@[simp] theorem State.setFc8_responses (s : State) (n : Nat) (u : Fc8) : (s.setFc8 n u).responses = s.responses := rfl
@[simp] theorem State.setFc8_draws (s : State) (n : Nat) (u : Fc8) : (s.setFc8 n u).draws = s.draws := rfl
@[simp] theorem State.setFc8_bpAt (s : State) (n : Nat) (u : Fc8) (m : Nat) : (s.setFc8 n u).bpAt m = s.bpAt m := rfl
@[simp] theorem State.setFc8_fc7At (s : State) (n : Nat) (u : Fc8) (m : Nat) : (s.setFc8 n u).fc7At m = s.fc7At m := rfl
@[simp] theorem State.setFc8_jrAt (s : State) (n : Nat) (u : Fc8) (m : Nat) : (s.setFc8 n u).jrAt m = s.jrAt m := rfl

@[simp] theorem State.setJr_params (s : State) (n : Nat) (u : Jr) : (s.setJr n u).params = s.params := rfl
@[simp] theorem State.setJr_inbox (s : State) (n : Nat) (u : Jr) : (s.setJr n u).inbox = s.inbox := rfl
@[simp] theorem State.setJr_target (s : State) (n : Nat) (u : Jr) : (s.setJr n u).target = s.target := rfl
@[simp] theorem State.setJr_bp (s : State) (n : Nat) (u : Jr) : (s.setJr n u).bp = s.bp := rfl
@[simp] theorem State.setJr_fc7 (s : State) (n : Nat) (u : Jr) : (s.setJr n u).fc7 = s.fc7 := rfl
@[simp] theorem State.setJr_fc8 (s : State) (n : Nat) (u : Jr) : (s.setJr n u).fc8 = s.fc8 := rfl
@[simp] theorem State.setJr_jr (s : State) (n : Nat) (u : Jr) : (s.setJr n u).jr = bankSet (Jr.powerOn s.params) s.jr n u := rfl
@[simp] theorem State.setJr_faultRec (s : State) (n : Nat) (u : Jr) : (s.setJr n u).faultRec = s.faultRec := rfl
@[simp] theorem State.setJr_refusedMark (s : State) (n : Nat) (u : Jr) : (s.setJr n u).refusedMark = s.refusedMark := rfl
@[simp] theorem State.setJr_responses (s : State) (n : Nat) (u : Jr) : (s.setJr n u).responses = s.responses := rfl
@[simp] theorem State.setJr_draws (s : State) (n : Nat) (u : Jr) : (s.setJr n u).draws = s.draws := rfl
@[simp] theorem State.setJr_bpAt (s : State) (n : Nat) (u : Jr) (m : Nat) : (s.setJr n u).bpAt m = s.bpAt m := rfl
@[simp] theorem State.setJr_fc7At (s : State) (n : Nat) (u : Jr) (m : Nat) : (s.setJr n u).fc7At m = s.fc7At m := rfl
@[simp] theorem State.setJr_fc8At (s : State) (n : Nat) (u : Jr) (m : Nat) : (s.setJr n u).fc8At m = s.fc8At m := rfl

/-! ## Updates as records -/

theorem State.finish_eq (s : State) (v : Option Result) (ev : List Event) :
    s.finish v ev = { s with responses := s.responses ++ [⟨.ok, v, ev⟩] } := rfl

theorem State.raise_eq (s : State) (r : FaultReason) :
    s.raise r = { s with faultRec := some r, responses := s.responses ++ [⟨.fault r, none, []⟩] } := rfl

theorem State.refuse_eq (s : State) (r : RefuseReason) :
    s.refuse r = { s with refusedMark := true, responses := s.responses ++ [⟨.refused r, none, []⟩] } := rfl

/-! ## At reset every instance is in its power-on state -/

@[simp] theorem State.reset_bpAt (n : Nat) : State.reset.bpAt n = Bp.powerOn := rfl
@[simp] theorem State.reset_fc7At (n : Nat) : State.reset.fc7At n = Fc7.powerOn := rfl
@[simp] theorem State.reset_fc8At (n : Nat) : State.reset.fc8At n = Fc8.powerOn := rfl
@[simp] theorem State.reset_jrAt (n : Nat) : State.reset.jrAt n = Jr.powerOn State.reset.params := rfl

end Sys2Proof.Machine
end

