-- ==== Sys2Proof/Laws/Bank.lean ====
section
/-! SUPPORT. The laws of an instance bank: an instance reads back as it was set, setting one leaves every other
alone, and setting keeps the canonical form. -/

namespace Sys2Proof.Machine

variable {σ : Type}

theorem bankGet_insert_same (powerOn : σ) (n : Nat) (u : σ) (bank : List (Nat × σ)) (h : ∀ e ∈ bank, e.1 ≠ n) :
    bankGet powerOn (bankInsert n u bank) n = u := by
  induction bank with
  | nil => simp [bankInsert, bankGet]
  | cons e rest ih =>
    have h1 : e.1 ≠ n := h e (by simp)
    by_cases hlt : n < e.1
    · simp [bankInsert, bankGet, hlt]
    · simp [bankInsert, bankGet, hlt, h1, ih fun x hx => h x (by simp [hx])]

theorem bankGet_insert_other (powerOn : σ) (n m : Nat) (u : σ) (bank : List (Nat × σ)) (h : m ≠ n) :
    bankGet powerOn (bankInsert n u bank) m = bankGet powerOn bank m := by
  induction bank with
  | nil => simp [bankInsert, bankGet, h.symm]
  | cons e rest ih =>
    by_cases hlt : n < e.1
    · simp [bankInsert, bankGet, hlt, h.symm]
    · simp [bankInsert, bankGet, hlt, ih]

theorem bankGet_filter_same (powerOn : σ) (n : Nat) (bank : List (Nat × σ)) :
    bankGet powerOn (bank.filter fun e => e.1 != n) n = powerOn := by
  induction bank with
  | nil => rfl
  | cons e rest ih => by_cases h : e.1 = n <;> simp [h, bankGet, ih]

theorem bankGet_filter_other (powerOn : σ) (n m : Nat) (bank : List (Nat × σ)) (h : m ≠ n) :
    bankGet powerOn (bank.filter fun e => e.1 != n) m = bankGet powerOn bank m := by
  induction bank with
  | nil => rfl
  | cons e rest ih =>
    by_cases h1 : e.1 = n
    · simp [h1, bankGet, h.symm, ih]
    · by_cases h2 : e.1 = m <;> simp [h1, h2, bankGet, ih, h]

/-- An instance reads back as it was set. -/
theorem bankGet_set_same [DecidableEq σ] (powerOn : σ) (bank : List (Nat × σ)) (n : Nat) (u : σ) :
    bankGet powerOn (bankSet powerOn bank n u) n = u := by
  unfold bankSet
  by_cases h : u = powerOn
  · simp [h, bankGet_filter_same]
  · simp only [h, if_false]
    exact bankGet_insert_same _ _ _ _ fun e he => by simpa using (List.mem_filter.mp he).2

/-- Setting an instance leaves every other one alone. -/
theorem bankGet_set_other [DecidableEq σ] (powerOn : σ) (bank : List (Nat × σ)) (n m : Nat) (u : σ) (h : m ≠ n) :
    bankGet powerOn (bankSet powerOn bank n u) m = bankGet powerOn bank m := by
  unfold bankSet
  by_cases hu : u = powerOn
  · simp [hu, bankGet_filter_other _ _ _ _ h]
  · simp only [hu, if_false]
    rw [bankGet_insert_other _ _ _ _ _ h, bankGet_filter_other _ _ _ _ h]

theorem mem_bankInsert (n : Nat) (u : σ) (bank : List (Nat × σ)) (e : Nat × σ) :
    e ∈ bankInsert n u bank → e = (n, u) ∨ e ∈ bank := by
  induction bank with
  | nil => simp [bankInsert]
  | cons a rest ih =>
    by_cases h : n < a.1 <;> simp only [bankInsert, h, if_true, if_false, List.mem_cons]
    · exact id
    · rintro (h | h)
      · exact .inr (.inl h)
      · exact (ih h).imp id .inr

theorem bankInsert_sorted (n : Nat) (u : σ) (bank : List (Nat × σ)) (hn : ∀ e ∈ bank, e.1 ≠ n)
    (h : bank.Pairwise fun a b => a.1 < b.1) : (bankInsert n u bank).Pairwise fun a b => a.1 < b.1 := by
  induction bank with
  | nil => simp [bankInsert]
  | cons a rest ih =>
    obtain ⟨h1, h2⟩ := List.pairwise_cons.mp h
    have ha : a.1 ≠ n := hn a (by simp)
    by_cases hlt : n < a.1
    · simp only [bankInsert, hlt, if_true]
      refine List.pairwise_cons.mpr ⟨fun e he => ?_, h⟩
      rcases List.mem_cons.mp he with rfl | he
      · exact hlt
      · exact Nat.lt_trans hlt (h1 e he)
    · simp only [bankInsert, hlt, if_false]
      refine List.pairwise_cons.mpr ⟨fun e he => ?_, ih (fun e he => hn e (by simp [he])) h2⟩
      rcases mem_bankInsert _ _ _ _ he with rfl | he
      · simp; omega
      · exact h1 e he

/-- Setting keeps the canonical form. -/
theorem bankSet_wf [DecidableEq σ] (powerOn : σ) (bank : List (Nat × σ)) (n : Nat) (u : σ)
    (h : bankWf powerOn bank = true) : bankWf powerOn (bankSet powerOn bank n u) = true := by
  simp only [bankWf, Bool.and_eq_true, decide_eq_true_eq, List.all_eq_true, bne_iff_ne] at h ⊢
  obtain ⟨hs, hp⟩ := h
  have hfs : (bank.filter fun e => e.1 != n).Pairwise fun a b => a.1 < b.1 := hs.filter _
  have hfp : ∀ e ∈ bank.filter fun e => e.1 != n, e.2 ≠ powerOn := fun e he => hp e (List.mem_filter.mp he).1
  unfold bankSet
  by_cases hu : u = powerOn
  · simpa [hu] using ⟨hfs, fun a b hab _ => hp (a, b) hab⟩
  · simp only [hu, if_false]
    refine ⟨bankInsert_sorted _ _ _ (fun e he => by simpa using (List.mem_filter.mp he).2) hfs, fun e he => ?_⟩
    rcases mem_bankInsert _ _ _ _ he with rfl | he
    · exact hu
    · exact hfp e he

/-! ## The banks of the state -/

@[simp] theorem State.setBp_bpAt_same (s : State) (n : Nat) (u : Bp) : (s.setBp n u).bpAt n = u :=
  bankGet_set_same _ _ _ _

theorem State.setBp_bpAt_other (s : State) (n m : Nat) (u : Bp) (h : m ≠ n) : (s.setBp n u).bpAt m = s.bpAt m :=
  bankGet_set_other _ _ _ _ _ h

/-- Writing back what an instance holds changes no instance. -/
@[simp] theorem State.setBp_self_bpAt (s : State) (n m : Nat) : (s.setBp n (s.bpAt n)).bpAt m = s.bpAt m := by
  by_cases h : m = n
  · subst h; simp
  · exact State.setBp_bpAt_other _ _ _ _ h

@[simp] theorem State.setFc7_fc7At_same (s : State) (n : Nat) (u : Fc7) : (s.setFc7 n u).fc7At n = u :=
  bankGet_set_same _ _ _ _

theorem State.setFc7_fc7At_other (s : State) (n m : Nat) (u : Fc7) (h : m ≠ n) : (s.setFc7 n u).fc7At m = s.fc7At m :=
  bankGet_set_other _ _ _ _ _ h

/-- Writing back what an instance holds changes no instance. -/
@[simp] theorem State.setFc7_self_fc7At (s : State) (n m : Nat) : (s.setFc7 n (s.fc7At n)).fc7At m = s.fc7At m := by
  by_cases h : m = n
  · subst h; simp
  · exact State.setFc7_fc7At_other _ _ _ _ h

@[simp] theorem State.setFc8_fc8At_same (s : State) (n : Nat) (u : Fc8) : (s.setFc8 n u).fc8At n = u :=
  bankGet_set_same _ _ _ _

theorem State.setFc8_fc8At_other (s : State) (n m : Nat) (u : Fc8) (h : m ≠ n) : (s.setFc8 n u).fc8At m = s.fc8At m :=
  bankGet_set_other _ _ _ _ _ h

/-- Writing back what an instance holds changes no instance. -/
@[simp] theorem State.setFc8_self_fc8At (s : State) (n m : Nat) : (s.setFc8 n (s.fc8At n)).fc8At m = s.fc8At m := by
  by_cases h : m = n
  · subst h; simp
  · exact State.setFc8_fc8At_other _ _ _ _ h

@[simp] theorem State.setJr_jrAt_same (s : State) (n : Nat) (u : Jr) : (s.setJr n u).jrAt n = u :=
  bankGet_set_same _ _ _ _

theorem State.setJr_jrAt_other (s : State) (n m : Nat) (u : Jr) (h : m ≠ n) : (s.setJr n u).jrAt m = s.jrAt m :=
  bankGet_set_other _ _ _ _ _ h

/-- Writing back what an instance holds changes no instance. -/
@[simp] theorem State.setJr_self_jrAt (s : State) (n m : Nat) : (s.setJr n (s.jrAt n)).jrAt m = s.jrAt m := by
  by_cases h : m = n
  · subst h; simp
  · exact State.setJr_jrAt_other _ _ _ _ h

end Sys2Proof.Machine
end

