-- ==== Sys2Proof/Laws/Ops.lean ====
section
/-! SUPPORT. One lemma per shared operation that says what it can do; proofs about instructions cite these and do not
unfold the operations. -/

namespace Sys2Proof.Machine

/-! ## Addressing -/

@[simp] theorem atUnit_of_eq {u : UnitKind} {s : State} {body : Step} (h : s.target.unit = u) :
    atUnit u s body = body := if_pos h

theorem atUnit_of_ne {u : UnitKind} {s : State} {body : Step} (h : s.target.unit ≠ u) :
    atUnit u s body = .next (s.refuse .wrongUnit) := if_neg h

/-! ## Stateless commands -/

theorem answer_ok {u : UnitKind} {v : Result} {s : State} (h : s.target.unit = u) :
    answer u (.ok v) s = .next (s.finish (some v) []) := by simp [answer, h]

theorem answer_fault {u : UnitKind} {r : FaultReason} {s : State} (h : s.target.unit = u) :
    answer u (.fault r) s = .next (s.raise r) := by simp [answer, h]

theorem answer_refuse {u : UnitKind} {r : RefuseReason} {s : State} (h : s.target.unit = u) :
    answer u (.refuse r) s = .next (s.refuse r) := by simp [answer, h]

/-- Everything a stateless command can do. -/
theorem answer_cases (u : UnitKind) (r : Reply Result) (s : State) :
    (∃ v, answer u r s = .next (s.finish (some v) [])) ∨ (∃ f, r = .fault f ∧ answer u r s = .next (s.raise f)) ∨
      ∃ f, answer u r s = .next (s.refuse f) := by
  unfold answer atUnit
  split
  · cases r with
    | ok v => exact .inl ⟨v, rfl⟩
    | fault f => exact .inr (.inl ⟨f, rfl, rfl⟩)
    | refuse f => exact .inr (.inr ⟨f, rfl⟩)
  · exact .inr (.inr ⟨_, rfl⟩)

/-! ## Stateful commands -/

theorem commit_ok {σ : Type} (put : σ → State) (s : State) (u : σ) (ev : List Event) :
    commit put s (.ok (u, ev)) = .next ((put u).finish none ev) := rfl

theorem commit_refuse {σ : Type} (put : σ → State) (s : State) (r : RefuseReason) :
    commit put s (.refuse r) = .next (s.refuse r) := rfl

theorem commit_fault {σ : Type} (put : σ → State) (s : State) (r : FaultReason) :
    commit put s (.fault r) = .next (s.raise r) := rfl

theorem onBp_ok {f : Params → Bp → Reply (Bp × List Event)} {s : State} {u : Bp} {ev : List Event}
    (h : s.target.unit = .bp) (hf : f s.params (s.bpAt s.target.idx) = .ok (u, ev)) :
    onBp f s = .next ((s.setBp s.target.idx u).finish none ev) := by simp [onBp, h, hf, commit]

theorem onBp_refuse {f : Params → Bp → Reply (Bp × List Event)} {s : State} {r : RefuseReason}
    (h : s.target.unit = .bp) (hf : f s.params (s.bpAt s.target.idx) = .refuse r) :
    onBp f s = .next (s.refuse r) := by simp [onBp, h, hf, commit]

/-- Everything a command of this unit can do. -/
theorem onBp_cases (f : Params → Bp → Reply (Bp × List Event)) (s : State) :
    (∃ u ev, s.target.unit = .bp ∧ f s.params (s.bpAt s.target.idx) = .ok (u, ev) ∧
      onBp f s = .next ((s.setBp s.target.idx u).finish none ev)) ∨
    (∃ r, s.target.unit = .bp ∧ f s.params (s.bpAt s.target.idx) = .fault r ∧ onBp f s = .next (s.raise r)) ∨
    ∃ r, onBp f s = .next (s.refuse r) := by
  unfold onBp atUnit
  split
  · next h =>
    cases hf : f s.params (s.bpAt s.target.idx) with
    | ok a => exact .inl ⟨a.1, a.2, h, rfl, rfl⟩
    | fault r => exact .inr (.inl ⟨r, h, rfl, rfl⟩)
    | refuse r => exact .inr (.inr ⟨r, rfl⟩)
  · exact .inr (.inr ⟨_, rfl⟩)

theorem onFc7_ok {f : Params → Fc7 → Reply (Fc7 × List Event)} {s : State} {u : Fc7} {ev : List Event}
    (h : s.target.unit = .fc7) (hf : f s.params (s.fc7At s.target.idx) = .ok (u, ev)) :
    onFc7 f s = .next ((s.setFc7 s.target.idx u).finish none ev) := by simp [onFc7, h, hf, commit]

theorem onFc7_refuse {f : Params → Fc7 → Reply (Fc7 × List Event)} {s : State} {r : RefuseReason}
    (h : s.target.unit = .fc7) (hf : f s.params (s.fc7At s.target.idx) = .refuse r) :
    onFc7 f s = .next (s.refuse r) := by simp [onFc7, h, hf, commit]

/-- Everything a command of this unit can do. -/
theorem onFc7_cases (f : Params → Fc7 → Reply (Fc7 × List Event)) (s : State) :
    (∃ u ev, s.target.unit = .fc7 ∧ f s.params (s.fc7At s.target.idx) = .ok (u, ev) ∧
      onFc7 f s = .next ((s.setFc7 s.target.idx u).finish none ev)) ∨
    (∃ r, s.target.unit = .fc7 ∧ f s.params (s.fc7At s.target.idx) = .fault r ∧ onFc7 f s = .next (s.raise r)) ∨
    ∃ r, onFc7 f s = .next (s.refuse r) := by
  unfold onFc7 atUnit
  split
  · next h =>
    cases hf : f s.params (s.fc7At s.target.idx) with
    | ok a => exact .inl ⟨a.1, a.2, h, rfl, rfl⟩
    | fault r => exact .inr (.inl ⟨r, h, rfl, rfl⟩)
    | refuse r => exact .inr (.inr ⟨r, rfl⟩)
  · exact .inr (.inr ⟨_, rfl⟩)

theorem onFc8_ok {f : Params → Fc8 → Reply (Fc8 × List Event)} {s : State} {u : Fc8} {ev : List Event}
    (h : s.target.unit = .fc8) (hf : f s.params (s.fc8At s.target.idx) = .ok (u, ev)) :
    onFc8 f s = .next ((s.setFc8 s.target.idx u).finish none ev) := by simp [onFc8, h, hf, commit]

theorem onFc8_refuse {f : Params → Fc8 → Reply (Fc8 × List Event)} {s : State} {r : RefuseReason}
    (h : s.target.unit = .fc8) (hf : f s.params (s.fc8At s.target.idx) = .refuse r) :
    onFc8 f s = .next (s.refuse r) := by simp [onFc8, h, hf, commit]

/-- Everything a command of this unit can do. -/
theorem onFc8_cases (f : Params → Fc8 → Reply (Fc8 × List Event)) (s : State) :
    (∃ u ev, s.target.unit = .fc8 ∧ f s.params (s.fc8At s.target.idx) = .ok (u, ev) ∧
      onFc8 f s = .next ((s.setFc8 s.target.idx u).finish none ev)) ∨
    (∃ r, s.target.unit = .fc8 ∧ f s.params (s.fc8At s.target.idx) = .fault r ∧ onFc8 f s = .next (s.raise r)) ∨
    ∃ r, onFc8 f s = .next (s.refuse r) := by
  unfold onFc8 atUnit
  split
  · next h =>
    cases hf : f s.params (s.fc8At s.target.idx) with
    | ok a => exact .inl ⟨a.1, a.2, h, rfl, rfl⟩
    | fault r => exact .inr (.inl ⟨r, h, rfl, rfl⟩)
    | refuse r => exact .inr (.inr ⟨r, rfl⟩)
  · exact .inr (.inr ⟨_, rfl⟩)

theorem onJr_ok {f : Params → Jr → Reply (Jr × List Event)} {s : State} {u : Jr} {ev : List Event}
    (h : s.target.unit = .jr) (hf : f s.params (s.jrAt s.target.idx) = .ok (u, ev)) :
    onJr f s = .next ((s.setJr s.target.idx u).finish none ev) := by simp [onJr, h, hf, commit]

theorem onJr_refuse {f : Params → Jr → Reply (Jr × List Event)} {s : State} {r : RefuseReason}
    (h : s.target.unit = .jr) (hf : f s.params (s.jrAt s.target.idx) = .refuse r) :
    onJr f s = .next (s.refuse r) := by simp [onJr, h, hf, commit]

/-- Everything a command of this unit can do. -/
theorem onJr_cases (f : Params → Jr → Reply (Jr × List Event)) (s : State) :
    (∃ u ev, s.target.unit = .jr ∧ f s.params (s.jrAt s.target.idx) = .ok (u, ev) ∧
      onJr f s = .next ((s.setJr s.target.idx u).finish none ev)) ∨
    (∃ r, s.target.unit = .jr ∧ f s.params (s.jrAt s.target.idx) = .fault r ∧ onJr f s = .next (s.raise r)) ∨
    ∃ r, onJr f s = .next (s.refuse r) := by
  unfold onJr atUnit
  split
  · next h =>
    cases hf : f s.params (s.jrAt s.target.idx) with
    | ok a => exact .inl ⟨a.1, a.2, h, rfl, rfl⟩
    | fault r => exact .inr (.inl ⟨r, h, rfl, rfl⟩)
    | refuse r => exact .inr (.inr ⟨r, rfl⟩)
  · exact .inr (.inr ⟨_, rfl⟩)

/-! ## Manufacturer-id routing -/

theorem route7_id {cap : Option Nat} {b : BitVec 7} {a : Accum} (h : a.mc < 3) : route7 cap b a = .ok (a.idByte b) := by
  simp [route7, h]

theorem route7_data {b : BitVec 7} {a : Accum} (h : ¬ a.mc < 3) :
    route7 none b a = .ok { a with buf := a.buf ++ [b.setWidth 8] } := by simp [route7, h, overCap]

/-- Everything `ROUTE7` can do: it routes an id byte, appends, or refuses at the capacity. -/
theorem route7_cases (cap : Option Nat) (b : BitVec 7) (a : Accum) :
    (a.mc < 3 ∧ route7 cap b a = .ok (a.idByte b)) ∨
    (¬ a.mc < 3 ∧ overCap cap a.buf.length = false ∧ route7 cap b a = .ok { a with buf := a.buf ++ [b.setWidth 8] }) ∨
    (¬ a.mc < 3 ∧ overCap cap a.buf.length = true ∧ route7 cap b a = .refuse .bufOverflow) := by
  by_cases h : a.mc < 3
  · exact .inl ⟨h, by simp [route7, h]⟩
  · cases ho : overCap cap a.buf.length with
    | false => exact .inr (.inl ⟨h, rfl, by simp [route7, h, ho]⟩)
    | true => exact .inr (.inr ⟨h, rfl, by simp [route7, h, ho]⟩)

theorem route7All_append (cap : Option Nat) (l m : Bytes) (a b : Accum) (h : route7All cap l a = .ok b) :
    route7All cap (l ++ m) a = route7All cap m b := by
  induction l generalizing a with
  | nil => simp only [route7All, Reply.ok.injEq] at h; simp [h]
  | cons x rest ih =>
    simp only [route7All, List.cons_append] at h ⊢
    split at h
    · exact ih _ h
    · cases h
    · cases h

/-- `ROUTE7` never faults. -/
theorem route7All_ne_fault (cap : Option Nat) (l : Bytes) (a : Accum) (r : FaultReason) :
    route7All cap l a ≠ .fault r := by
  induction l generalizing a with
  | nil => simp [route7All]
  | cons x rest ih =>
    rcases route7_cases cap (x.setWidth 7) a with ⟨_, h⟩ | ⟨_, _, h⟩ | ⟨_, _, h⟩ <;> simp [route7All, h, ih]

theorem route8All_append (max : Option Nat) (l m : Bytes) (x : Accum × Bool) :
    route8All max (l ++ m) x = route8All max m (route8All max l x) := by
  induction l generalizing x with
  | nil => rfl
  | cons b rest ih => simp [route8All, ih]

/-! ## Taking the next transaction -/

theorem fetch_run {s : State} {f : Frame} {rest : List Frame} {i : Instr} (hq : s.faultRec = none)
    (hi : s.inbox = f :: rest) (hd : decode f.raw = .ok i) : fetch s = .run i (s.take f rest) := by
  simp [fetch, hq, hi, hd]

theorem fetch_halted {s : State} {r : FaultReason} (h : s.faultRec = some r) : fetch s = .halted r := by
  simp [fetch, h]

theorem fetch_idle {s : State} (hq : s.faultRec = none) (hi : s.inbox = []) : fetch s = .idle := by
  simp [fetch, hq, hi]

theorem fetch_noRow {s : State} {f : Frame} {rest : List Frame} {fmt : PacketFormat} {p : Packet}
    (hq : s.faultRec = none) (hi : s.inbox = f :: rest) (hd : decode f.raw = .error (.noRow fmt p)) :
    fetch s = .run (packetCommand fmt p) (s.take f rest) := by
  simp [fetch, hq, hi, hd]

/-- What a step that gives a next state has done: nothing, refused a reserved code, or run an instruction, the decoded
one or the command of a packet without a row. -/
theorem step_next_cases {s t : State} (h : step s = .next t) :
    s.faultRec = none ∧ ((s.inbox = [] ∧ t = s) ∨
      (∃ f rest c, s.inbox = f :: rest ∧ decode f.raw = .error (.reservedCmd c) ∧
        t = (s.take f rest).refuse .reservedCmd) ∨
      ∃ f rest i, s.inbox = f :: rest ∧
        (decode f.raw = .ok i ∨ ∃ fmt p, decode f.raw = .error (.noRow fmt p) ∧ i = packetCommand fmt p) ∧
        exec i (s.take f rest) = .next t) := by
  unfold step fetch at h
  cases hq : s.faultRec with
  | some r => simp [hq] at h
  | none =>
    refine ⟨rfl, ?_⟩
    cases hi : s.inbox with
    | nil => simp only [hq, hi] at h; exact .inl ⟨rfl, by injection h with h; exact h.symm⟩
    | cons f rest =>
      simp only [hq, hi] at h
      cases hd : decode f.raw with
      | ok i => simp only [hd] at h; exact .inr (.inr ⟨f, rest, i, rfl, .inl hd, h⟩)
      | error e =>
        cases e with
        | reservedCmd c => simp only [hd] at h; exact .inr (.inl ⟨f, rest, c, rfl, hd, by injection h with h; exact h.symm⟩)
        | badOperands c => simp [hd] at h
        | noRow fmt p => simp only [hd] at h; exact .inr (.inr ⟨f, rest, _, rfl, .inr ⟨fmt, p, hd, rfl⟩, h⟩)

/-! ## Decoding the operand fields -/

@[simp] theorem withNum_num {α : Type} {w : Nat} {k : BitVec w → List Field → Option α} (v : BitVec w)
    (rest : List Field) : withNum w k (.num v.toNat :: rest) = k v rest := by
  simp [withNum, v.isLt]

@[simp] theorem withTime_num {α : Type} {k : Nat → List Field → Option α} (v : Nat) (rest : List Field) :
    withTime k (.num v :: rest) = k v rest := rfl

@[simp] theorem withPacket_packet {α : Type} {k : Packet → List Field → Option α} (p : Packet) (rest : List Field) :
    withPacket k (.packet p :: rest) = k p rest := rfl

@[simp] theorem withBytes_bytes {α : Type} {k : Bytes → List Field → Option α} (l : Bytes) (rest : List Field) :
    withBytes k (.bytes l :: rest) = k l rest := rfl

@[simp] theorem withLimit_limit {α : Type} {k : Option Nat → List Field → Option α} (m : Option Nat)
    (rest : List Field) : withLimit k (.limit m :: rest) = k m rest := rfl

@[simp] theorem noMore_nil (i : Instr) : noMore i [] = some i := rfl

@[simp] theorem operands_some (code : Byte) (i : Instr) : operands code (some i) = .ok i := rfl

end Sys2Proof.Machine
end

