-- ==== Sys2Proof/Laws/Exec.lean ====
section
/-! SUPPORT. Every instruction's shape, said once: a stateless answer, a byte given to a parser, a fragment given to a
collector, or one of the commands that stand alone. Proofs over all instructions start from here. -/

namespace Sys2Proof.Machine

theorem byteData_bits : ∀ v : BitVec 7, 0b0#1 ++ v = BitVec.ofNat 8 v.toNat := by decide
theorem byteCv80_bits : ∀ v : BitVec 6, 0b10#2 ++ v = BitVec.ofNat 8 (0x80 + v.toNat) := by decide
theorem byteCvC0_bits : ∀ v : BitVec 5, 0b110#3 ++ v = BitVec.ofNat 8 (0xC0 + v.toNat) := by decide
theorem byteCvE0_bits : ∀ v : BitVec 4, 0b1110#4 ++ v = BitVec.ofNat 8 (0xE0 + v.toNat) := by decide

/-- A byte instruction, `BP.FEED` or a byte row, feeds its byte. -/
theorem exec_of_byteOf {i : Instr} {b : Byte} (h : byteOf i = some b) (s : State) :
    exec i s = onBp (fun c u => Bp.feed c.bpBufCap b u) s := by
  have row : ∀ x : Byte, x = b → presentByte x s = onBp (fun c u => Bp.feed c.bpBufCap b u) s := fun x h => by
    subst h; rfl
  cases i <;> simp only [byteOf, Option.some.injEq, reduceCtorEq] at h <;>
    first
      | exact row _ h
      | exact row _ ((byteData_bits _).trans h)
      | exact row _ ((byteCv80_bits _).trans h)
      | exact row _ ((byteCvC0_bits _).trans h)
      | exact row _ ((byteCvE0_bits _).trans h)

/-- A seven-bit fragment instruction, `FC7.FEED` or a T3 row, feeds its packet. -/
theorem exec_of_fragment7Of {i : Instr} {p : Packet} (h : fragment7Of i = some p) (s : State) :
    exec i s = onFc7 (fun c u => Fc7.feed c.fc7BufCap p u) s := by
  cases i <;> simp only [fragment7Of, Option.some.injEq, reduceCtorEq] at h <;> subst h <;> rfl

/-- An eight-bit fragment instruction, `FC8.FEED` or a T5 row, feeds its packet. -/
theorem exec_of_fragment8Of {i : Instr} {p : Packet} (h : fragment8Of i = some p) (s : State) :
    exec i s = onFc8 (fun c u => .ok (Fc8.feed c.fc8TruncFlag p u)) s := by
  cases i <;> simp only [fragment8Of, Option.some.injEq, reduceCtorEq] at h <;> subst h <;> rfl

/-- Every instruction is one of these. -/
theorem exec_cases (i : Instr) :
    (∃ r, ∀ s, exec i s = answer (unitOf i) r s) ∨ (∃ b, byteOf i = some b) ∨ (∃ p, fragment7Of i = some p) ∨
    (∃ p, fragment8Of i = some p) ∨ i = .bpReset ∨ (∃ g e m, i = .bpCfg g e m) ∨ i = .fc7Reset ∨ i = .fc8Reset ∨
    (∃ m, i = .fc8Cfg m) ∨ (∃ t ts, i = .jrSync t ts) ∨ (∃ t ts, i = .jrSched t ts) ∨ i = .jrReset := by
  cases i
  case bpReset | bpCfg | fc7Reset | fc8Reset | fc8Cfg | jrSync | jrSched | jrReset => simp
  all_goals try first
    | exact .inr (.inl ⟨_, rfl⟩)
    | exact .inr (.inr (.inl ⟨_, rfl⟩))
    | exact .inr (.inr (.inr (.inl ⟨_, rfl⟩)))
  all_goals
    refine .inl ?_
    simp only [exec, unitOf, typeDecode, execPkMake, execPkSize, execPkType, execPkGroup, execPkStatus, execPkGetb, execPkSetb, execPkGet7, execPkSet7,
      execPkGet14, execPkSet14, execPkGet28, execPkSet28, execPkGetn, execPkSetn, execPkIsfam, execScUp7To16,
      execScUp7To32, execScUp14To16, execScUp14To32, execScDn16To7, execScDn32To7, execScDn16To14, execScDn32To14,
      execSxIs7, execSxIs8, execSxTotal, execFr7Frag, execFr8Frag, execTagUtility, execTagSystem, execTagCv1,
      execTagSysex7, execTagCv2, execTagSysex8, execTagFlex, execTagStream, execTagReserved6, execTagReserved7,
      execTagReserved8, execTagReserved9, execTagReservedA, execTagReservedB, execTagReservedC, execTagReservedE]
    exact ⟨_, fun _ => rfl⟩

/-- Everything a command can do to the machine: it answers, faults, is refused, writes the addressed instance
of its own unit, or uses a free draw. -/
inductive Effect (i : Instr) (s : State) : State → Prop where
  | answered (v : Result) : Effect i s (s.finish (some v) [])
  | faulted (r : FaultReason) (h : ∃ v, ∀ x, exec i x = answer (unitOf i) v x) : Effect i s (s.raise r)
  | refused (r : RefuseReason) : Effect i s (s.refuse r)
  | bpFed (b : Byte) (u : Bp) (ev : List Event) (hu : s.target.unit = .bp)
      (h : Bp.feed s.params.bpBufCap b (s.bpAt s.target.idx) = .ok (u, ev)) :
      Effect i s ((s.setBp s.target.idx u).finish none ev)
  | bpReset (hu : s.target.unit = .bp) :
      Effect i s ((s.setBp s.target.idx (s.bpAt s.target.idx).cleared).finish none [])
  | bpConfigured (g : BitVec 4) (e m : BitVec 1) (u : Bp) (ev : List Event) (hu : s.target.unit = .bp)
      (h : (s.bpAt s.target.idx).configure g e m = .ok (u, ev)) :
      Effect i s ((s.setBp s.target.idx u).finish none ev)
  | fc7Fed (p : Packet) (u : Fc7) (ev : List Event) (hu : s.target.unit = .fc7)
      (h : Fc7.feed s.params.fc7BufCap p (s.fc7At s.target.idx) = .ok (u, ev)) :
      Effect i s ((s.setFc7 s.target.idx u).finish none ev)
  | fc7Reset (hu : s.target.unit = .fc7) : Effect i s ((s.setFc7 s.target.idx Fc7.powerOn).finish none [])
  | fc8Fed (p : Packet) (hu : s.target.unit = .fc8) :
      Effect i s ((s.setFc8 s.target.idx (Fc8.feed s.params.fc8TruncFlag p (s.fc8At s.target.idx)).1).finish none
        (Fc8.feed s.params.fc8TruncFlag p (s.fc8At s.target.idx)).2)
  | fc8Reset (hu : s.target.unit = .fc8) :
      Effect i s ((s.setFc8 s.target.idx (s.fc8At s.target.idx).cleared).finish none [])
  | fc8Configured (m : Option Nat) (hu : s.target.unit = .fc8) :
      Effect i s ((s.setFc8 s.target.idx { s.fc8At s.target.idx with max := m }).finish none [])
  | jrSynced (t : Nat) (ts : BitVec 16) (u : Jr) (ev : List Event) (hu : s.target.unit = .jr)
      (h : Jr.sync s.params t ts (s.jrAt s.target.idx) = .ok (u, ev)) :
      Effect i s ((s.setJr s.target.idx u).finish none ev)
  | jrScheduled (ts : BitVec 16) (hu : s.target.unit = .jr) (h : (s.jrAt s.target.idx).init = true)
      (hc : fitsTime s.params (Jr.timeOf s.params ts (s.jrAt s.target.idx)) = true) (v : Option Result)
      (hv : v = some (.time ((Jr.schedule s.params ts (s.jrAt s.target.idx)).wm + (s.jrAt s.target.idx).sec))) :
      Effect i s ((s.setJr s.target.idx (Jr.schedule s.params ts (s.jrAt s.target.idx))).finish v [])
  | jrReset (hu : s.target.unit = .jr) (h : i = .jrReset) :
      Effect i s ((s.setJr s.target.idx (Jr.powerOn s.params)).finish none [])
  | drew (hu : s.target.unit = .jr) (h : (s.jrAt s.target.idx).init = false) :
      Effect i s (s.drawn.finish (some (.time (freeTime s.params s.draws))) [])

/-- What a stateful command does, from its unit's operation. -/
theorem effect_of_bp {i : Instr} {s t : State} {f : Params → Bp → Reply (Bp × List Event)} (h : onBp f s = .next t)
    (hf : ∀ r, f s.params (s.bpAt s.target.idx) ≠ .fault r)
    (ho : ∀ u ev, s.target.unit = .bp → f s.params (s.bpAt s.target.idx) = .ok (u, ev) →
      Effect i s ((s.setBp s.target.idx u).finish none ev)) : Effect i s t := by
  rcases onBp_cases f s with ⟨_, _, hu, h1, h2⟩ | ⟨_, _, h1, _⟩ | ⟨_, h2⟩
  · rw [h] at h2; cases h2; exact ho _ _ hu h1
  · exact absurd h1 (hf _)
  · rw [h] at h2; cases h2; exact .refused _

theorem effect_of_fc7 {i : Instr} {s t : State} {f : Params → Fc7 → Reply (Fc7 × List Event)}
    (h : onFc7 f s = .next t) (hf : ∀ r, f s.params (s.fc7At s.target.idx) ≠ .fault r)
    (ho : ∀ u ev, s.target.unit = .fc7 → f s.params (s.fc7At s.target.idx) = .ok (u, ev) →
      Effect i s ((s.setFc7 s.target.idx u).finish none ev)) : Effect i s t := by
  rcases onFc7_cases f s with ⟨_, _, hu, h1, h2⟩ | ⟨_, _, h1, _⟩ | ⟨_, h2⟩
  · rw [h] at h2; cases h2; exact ho _ _ hu h1
  · exact absurd h1 (hf _)
  · rw [h] at h2; cases h2; exact .refused _

theorem effect_of_fc8 {i : Instr} {s t : State} {f : Params → Fc8 → Reply (Fc8 × List Event)}
    (h : onFc8 f s = .next t) (hf : ∀ r, f s.params (s.fc8At s.target.idx) ≠ .fault r)
    (ho : ∀ u ev, s.target.unit = .fc8 → f s.params (s.fc8At s.target.idx) = .ok (u, ev) →
      Effect i s ((s.setFc8 s.target.idx u).finish none ev)) : Effect i s t := by
  rcases onFc8_cases f s with ⟨_, _, hu, h1, h2⟩ | ⟨_, _, h1, _⟩ | ⟨_, h2⟩
  · rw [h] at h2; cases h2; exact ho _ _ hu h1
  · exact absurd h1 (hf _)
  · rw [h] at h2; cases h2; exact .refused _

theorem effect_of_jr {i : Instr} {s t : State} {f : Params → Jr → Reply (Jr × List Event)} (h : onJr f s = .next t)
    (hf : ∀ r, f s.params (s.jrAt s.target.idx) ≠ .fault r)
    (ho : ∀ u ev, s.target.unit = .jr → f s.params (s.jrAt s.target.idx) = .ok (u, ev) →
      Effect i s ((s.setJr s.target.idx u).finish none ev)) : Effect i s t := by
  rcases onJr_cases f s with ⟨_, _, hu, h1, h2⟩ | ⟨_, _, h1, _⟩ | ⟨_, h2⟩
  · rw [h] at h2; cases h2; exact ho _ _ hu h1
  · exact absurd h1 (hf _)
  · rw [h] at h2; cases h2; exact .refused _

/-- Routing raises no fault. -/
theorem route7_no_fault (cap : Option Nat) (b : BitVec 7) (a : Accum) (r : FaultReason) : route7 cap b a ≠ .fault r := by
  unfold route7; repeat' split
  all_goals exact fun h => nomatch h

theorem route7All_no_fault (cap : Option Nat) (l : Bytes) (a : Accum) (r : FaultReason) :
    route7All cap l a ≠ .fault r := by
  induction l generalizing a with
  | nil => exact fun h => nomatch h
  | cons b rest ih =>
    unfold route7All
    split
    · exact ih _
    · next h => exact absurd h (route7_no_fault _ _ _ _)
    · exact fun h => nomatch h

/-- Feeding a parser raises no fault. -/
theorem bp_feed_no_fault (cap : Option Nat) (b : Byte) (u : Bp) (r : FaultReason) : Bp.feed cap b u ≠ .fault r := by
  intro h
  unfold Bp.feed at h
  split at h
  · nomatch h
  split at h
  · split at h
    · unfold Bp.sxAppend at h
      split at h
      · split at h <;> nomatch h
      · split at h
        · nomatch h
        · next h1 => exact route7_no_fault _ _ _ _ h1
        · nomatch h
    · split at h <;> nomatch h
  · nomatch h

theorem bp_configure_no_fault (g : BitVec 4) (e m : BitVec 1) (u : Bp) (r : FaultReason) :
    u.configure g e m ≠ .fault r := by
  unfold Bp.configure; split <;> exact fun h => nomatch h

/-- Feeding a seven-bit collector raises no fault. -/
theorem fc7_feed_no_fault (cap : Option Nat) (p : Packet) (u : Fc7) (r : FaultReason) :
    Fc7.feed cap p u ≠ .fault r := by
  have hc : ∀ k l u, Fc7.collect cap k l u ≠ .fault r := by
    intro k l u h
    unfold Fc7.collect at h
    split at h
    · split at h <;> nomatch h
    · next h1 => exact route7All_no_fault _ _ _ _ h1
    · nomatch h
  intro h
  unfold Fc7.feed at h
  split at h
  · split at h
    · nomatch h
    · simp only at h
      split at h
      · exact hc _ _ _ h
      · split at h
        · nomatch h
        · exact hc _ _ _ h
  · nomatch h

theorem jr_sync_no_fault (c : Params) (t : Nat) (ts : BitVec 16) (u : Jr) (r : FaultReason) :
    Jr.sync c t ts u ≠ .fault r := by
  unfold Jr.sync; simp only; repeat' split
  all_goals exact fun h => nomatch h

/-- Every next state of every instruction is one of these effects. -/
theorem exec_effect {i : Instr} {s t : State} (h : exec i s = .next t) : Effect i s t := by
  rcases exec_cases i with ⟨r, h'⟩ | ⟨b, h'⟩ | ⟨p, h'⟩ | ⟨p, h'⟩ | rfl | ⟨g, e, m, rfl⟩ | rfl | rfl | ⟨m, rfl⟩ |
    ⟨a, ts, rfl⟩ | ⟨a, ts, rfl⟩ | rfl
  · rcases answer_cases (unitOf i) r s with ⟨v, h4⟩ | ⟨f, _, h4⟩ | ⟨f, h4⟩ <;> rw [← h', h] at h4 <;> cases h4
    · exact .answered v
    · exact .faulted f ⟨_, h'⟩
    · exact .refused f
  · rw [exec_of_byteOf h'] at h
    exact effect_of_bp h (bp_feed_no_fault _ _ _) fun u ev hu hf => .bpFed b u ev hu hf
  · rw [exec_of_fragment7Of h'] at h
    exact effect_of_fc7 h (fc7_feed_no_fault _ _ _) fun u ev hu hf => .fc7Fed p u ev hu hf
  · rw [exec_of_fragment8Of h'] at h
    exact effect_of_fc8 h (fun _ h => nomatch h) fun u ev hu hf => by
      have hx : Fc8.feed s.params.fc8TruncFlag p (s.fc8At s.target.idx) = (u, ev) := by injection hf
      have hy := Effect.fc8Fed (i := i) p hu
      rwa [hx] at hy
  · exact effect_of_bp (f := fun _ u => .ok (u.cleared, [])) h (fun _ h => nomatch h) fun u ev hu hf => by
      cases hf; exact .bpReset hu
  · exact effect_of_bp (f := fun _ u => u.configure g e m) h (bp_configure_no_fault _ _ _ _) fun u ev hu hf =>
      .bpConfigured g e m u ev hu hf
  · exact effect_of_fc7 (f := fun _ _ => .ok (Fc7.powerOn, [])) h (fun _ h => nomatch h) fun u ev hu hf => by
      cases hf; exact .fc7Reset hu
  · exact effect_of_fc8 (f := fun _ u => .ok (u.cleared, [])) h (fun _ h => nomatch h) fun u ev hu hf => by
      cases hf; exact .fc8Reset hu
  · exact effect_of_fc8 (f := fun _ u => .ok ({ u with max := m }, [])) h (fun _ h => nomatch h) fun u ev hu hf => by
      cases hf; exact .fc8Configured m hu
  · exact effect_of_jr (f := fun c u => Jr.sync c a ts u) h (jr_sync_no_fault _ _ _ _) fun u ev hu hf =>
      .jrSynced a ts u ev hu hf
  · simp only [exec, execJrSched, atUnit] at h
    split at h
    · next hu =>
      split at h
      · next hi => cases h; exact .drew hu (by simpa using hi)
      · next hi =>
        split at h
        · next hf =>
          cases h
          exact .jrScheduled ts hu (by simpa using hi) ((Bool.and_eq_true _ _).mp hf).1 _ rfl
        · cases h; exact .refused _
    · cases h; exact .refused _
  · exact effect_of_jr (f := fun c _ => .ok (Jr.powerOn c, [])) h (fun _ h => nomatch h) fun u ev hu hf => by
      cases hf; exact .jrReset hu rfl

/-! ## From a shape to what the command does -/

theorem answers_of {i : Instr} {s : State} {u : UnitKind} {v : Result} (h : exec i s = answer u (.ok v) s)
    (hu : s.target.unit = u) : Answers i s v := h.trans (answer_ok hu)

theorem faults_of {i : Instr} {s : State} {u : UnitKind} {r : FaultReason} (h : exec i s = answer u (.fault r) s)
    (hu : s.target.unit = u) : Faults i s r := h.trans (answer_fault hu)

theorem refuses_of {i : Instr} {s : State} {u : UnitKind} {r : RefuseReason} (h : exec i s = answer u (.refuse r) s)
    (hu : s.target.unit = u) : Refuses i s r := h.trans (answer_refuse hu)

theorem bpBecomes_of {i : Instr} {s : State} {f : Params → Bp → Reply (Bp × List Event)} {u : Bp} {ev : List Event}
    (h : exec i s = onBp f s) (hu : s.target.unit = .bp) (hf : f s.params (s.bpAt s.target.idx) = .ok (u, ev)) :
    BpBecomes i s u ev :=
  ⟨_, h.trans (onBp_ok hu hf), by simp, fun m hm => by simp [State.setBp_bpAt_other _ _ _ _ hm], rfl⟩

theorem bpRefuses_of {i : Instr} {s : State} {f : Params → Bp → Reply (Bp × List Event)} {r : RefuseReason}
    (h : exec i s = onBp f s) (hu : s.target.unit = .bp) (hf : f s.params (s.bpAt s.target.idx) = .refuse r) :
    Refuses i s r := h.trans (onBp_refuse hu hf)

theorem fc7Becomes_of {i : Instr} {s : State} {f : Params → Fc7 → Reply (Fc7 × List Event)} {u : Fc7}
    {ev : List Event} (h : exec i s = onFc7 f s) (hu : s.target.unit = .fc7)
    (hf : f s.params (s.fc7At s.target.idx) = .ok (u, ev)) : Fc7Becomes i s u ev :=
  ⟨_, h.trans (onFc7_ok hu hf), by simp, fun m hm => by simp [State.setFc7_fc7At_other _ _ _ _ hm], rfl⟩

theorem fc7Refuses_of {i : Instr} {s : State} {f : Params → Fc7 → Reply (Fc7 × List Event)} {r : RefuseReason}
    (h : exec i s = onFc7 f s) (hu : s.target.unit = .fc7) (hf : f s.params (s.fc7At s.target.idx) = .refuse r) :
    Refuses i s r := h.trans (onFc7_refuse hu hf)

theorem fc8Becomes_of {i : Instr} {s : State} {f : Params → Fc8 → Reply (Fc8 × List Event)} {u : Fc8}
    {ev : List Event} (h : exec i s = onFc8 f s) (hu : s.target.unit = .fc8)
    (hf : f s.params (s.fc8At s.target.idx) = .ok (u, ev)) : Fc8Becomes i s u ev :=
  ⟨_, h.trans (onFc8_ok hu hf), by simp, fun m hm => by simp [State.setFc8_fc8At_other _ _ _ _ hm], rfl⟩

theorem jrBecomes_of {i : Instr} {s : State} {f : Params → Jr → Reply (Jr × List Event)} {u : Jr}
    (h : exec i s = onJr f s) (hu : s.target.unit = .jr) (hf : f s.params (s.jrAt s.target.idx) = .ok (u, [])) :
    JrBecomes i s u none :=
  ⟨_, h.trans (onJr_ok hu hf), by simp, fun m hm => by simp [State.setJr_jrAt_other _ _ _ _ hm], rfl⟩

theorem jrRefuses_of {i : Instr} {s : State} {f : Params → Jr → Reply (Jr × List Event)} {r : RefuseReason}
    (h : exec i s = onJr f s) (hu : s.target.unit = .jr) (hf : f s.params (s.jrAt s.target.idx) = .refuse r) :
    Refuses i s r := h.trans (onJr_refuse hu hf)

end Sys2Proof.Machine
end

