-- ==== Sys2Proof/Laws/Packet.lean ====
section
/-! SUPPORT. Packets as numbers, and what reading a byte or a nibble of a packet gives after one is written. -/

namespace Sys2Proof.Machine

/-- Concatenation as arithmetic. -/
theorem append_toNat {m n : Nat} (x : BitVec m) (y : BitVec n) : (x ++ y).toNat = x.toNat * 2 ^ n + y.toNat := by
  rw [BitVec.toNat_append, Nat.shiftLeft_eq, Nat.mul_comm, Nat.two_pow_add_eq_or_of_lt y.isLt]

/-- The four words as one number, word 0 on top. -/
theorem packetBits_toNat (p : Packet) :
    (packetBits p).toNat = p.w0.toNat * 2 ^ 96 + p.w1.toNat * 2 ^ 64 + p.w2.toNat * 2 ^ 32 + p.w3.toNat := by
  simp only [packetBits, append_toNat]; ring

/-- Word 0 from its fields, as a number. -/
theorem word0_toNat (tag g : BitVec 4) (st : Byte) (d : BitVec 16) :
    (word0 tag g st d).toNat = tag.toNat * 2 ^ 28 + g.toNat * 2 ^ 24 + st.toNat * 2 ^ 16 + d.toNat := by
  simp only [word0, append_toNat]; ring

/-- Byte `i` of a packet is bits [127 - 8i : 120 - 8i] of its four words. -/
theorem getByte_eq (p : Packet) (i : Nat) (hi : i < 16) :
    getByte p i = (packetBits p).extractLsb' (120 - 8 * i) 8 := by
  apply BitVec.eq_of_toNat_eq
  have h0 := p.w0.isLt
  have h1 := p.w1.isLt
  have h2 := p.w2.isLt
  have h3 := p.w3.isLt
  simp only [getByte, fieldOf, BitVec.extractLsb'_toNat, packetBits_toNat, Nat.shiftRight_eq_div_pow]
  interval_cases i <;> simp only [wordOf, Nat.reduceDiv, Nat.reduceMod, Nat.reduceMul, Nat.reduceSub, Nat.reducePow] <;> omega

/-- Nibble `k` of a packet is bits [127 - 4k : 124 - 4k] of its four words. -/
theorem getNibble_eq (p : Packet) (i : Nat) (hi : i < 32) :
    getNibble p i = (packetBits p).extractLsb' (124 - 4 * i) 4 := by
  apply BitVec.eq_of_toNat_eq
  have h0 := p.w0.isLt
  have h1 := p.w1.isLt
  have h2 := p.w2.isLt
  have h3 := p.w3.isLt
  simp only [getNibble, fieldOf, BitVec.extractLsb'_toNat, packetBits_toNat, Nat.shiftRight_eq_div_pow]
  interval_cases i <;> simp only [wordOf, Nat.reduceDiv, Nat.reduceMod, Nat.reduceMul, Nat.reduceSub, Nat.reducePow] <;> omega

/-- The tag of word 0 reads back. -/
theorem tagOf_word0 (tag g : BitVec 4) (st : Byte) (d : BitVec 16) (a b c : Word) :
    tagOf ⟨word0 tag g st d, a, b, c⟩ = tag := by
  apply BitVec.eq_of_toNat_eq
  have := tag.isLt
  have := g.isLt
  have := st.isLt
  have := d.isLt
  simp only [tagOf, fieldOf, BitVec.extractLsb'_toNat, word0_toNat, Nat.shiftRight_eq_div_pow]; omega

/-- A field reads back as it was written. -/
theorem setField_get (n : Nat) (w : Word) (lo lo' : Nat) (v : BitVec n) (hl : lo = lo') (h : lo + n ≤ 32) :
    fieldOf n (setField n w lo v) lo' = v := by
  subst hl
  simp only [fieldOf, setField]
  ext j hj
  have : lo + j < 32 := by omega
  simp [this, hj]

/-- Writing a field leaves a field beside it alone. -/
theorem setField_ne (n : Nat) (w : Word) (lo lo' : Nat) (v : BitVec n) (h : lo + n ≤ lo' ∨ lo' + n ≤ lo) :
    fieldOf n (setField n w lo v) lo' = fieldOf n w lo' := by
  simp only [fieldOf, setField]
  ext j hj
  rcases h with h | h
  · have h1 : ¬ (lo' + j < lo) := by omega
    have h2 : n ≤ lo' + j - lo := by omega
    by_cases h3 : lo' + j < 32
    · simp [h1, h2, h3]
    · simp [h3, w.getLsbD_of_ge (lo' + j) (Nat.le_of_not_lt h3)]
  · have h1 : (lo' + j < lo) := by omega
    by_cases h3 : lo' + j < 32
    · simp [h1, h3]
    · simp [h3, w.getLsbD_of_ge (lo' + j) (Nat.le_of_not_lt h3)]

/-- A word written reads back, and the other words stay. -/
theorem wordOf_setWord (p : Packet) (i j : Nat) (w : Word) (hi : i < 4) :
    wordOf (setWord p i w) j = if j = i then w else wordOf p j := by
  interval_cases i <;> rcases j with _|_|_|_|j <;> simp [wordOf, setWord]

/-- A byte written reads back, and the other bytes stay. -/
theorem getByte_setByte (p : Packet) (i j : Nat) (v : Byte) (hi : i < 16) :
    getByte (setByte p i v) j = if j = i then v else getByte p j := by
  simp only [getByte, setByte, wordOf_setWord _ _ _ _ (show i / 4 < 4 by omega)]
  by_cases h : j / 4 = i / 4
  · by_cases h2 : j = i
    · subst h2; simp only [if_true]; exact setField_get _ _ _ _ _ rfl (by omega)
    · simp only [h, if_true, h2, if_false]; exact setField_ne _ _ _ _ _ (by omega)
  · simp only [h, if_false]; rw [if_neg (by rintro rfl; exact h rfl)]

/-- A nibble written reads back, and the other nibbles stay. -/
theorem getNibble_setNibble (p : Packet) (i j : Nat) (v : BitVec 4) (hi : i < 32) :
    getNibble (setNibble p i v) j = if j = i then v else getNibble p j := by
  simp only [getNibble, setNibble, wordOf_setWord _ _ _ _ (show i / 8 < 4 by omega)]
  by_cases h : j / 8 = i / 8
  · by_cases h2 : j = i
    · subst h2; simp only [if_true]; exact setField_get _ _ _ _ _ rfl (by omega)
    · simp only [h, if_true, h2, if_false]; exact setField_ne _ _ _ _ _ (by omega)
  · simp only [h, if_false]; rw [if_neg (by rintro rfl; exact h rfl)]

end Sys2Proof.Machine
end

