-- ==== Sys2Proof/Laws/PerInstr.lean ====
section
/-! SUPPORT. The family RowBits: the encoder puts the fixed bits of an instruction's row of spec/opcode_table.json where
the row has them. -/

namespace Sys2Proof.Laws

open Sys2Proof.Machine

/-- The first word of a transaction: the command code, the byte, or word 0 of the packet. -/
def firstWord : Raw → Word
  | .cmd code _ => code.setWidth 32
  | .packet _ p => p.w0
  | .byte b => b.setWidth 32

/-- The mask and match of each instruction's row. The fragment rows have the kind at w0[23:20], as 30_encoding.md R99
to R101 say (log 9). -/
def rowBits : Instr → Word × Word
  | .pkMake _ _ _ _ _ => (0xFF, 0x00)
  | .pkSize _ => (0xFF, 0x01)
  | .pkType _ => (0xFF, 0x02)
  | .pkGroup _ => (0xFF, 0x03)
  | .pkStatus _ => (0xFF, 0x04)
  | .pkGetb _ _ => (0xFF, 0x05)
  | .pkSetb _ _ _ => (0xFF, 0x06)
  | .pkGet7 _ _ => (0xFF, 0x07)
  | .pkSet7 _ _ _ => (0xFF, 0x08)
  | .pkGet14 _ _ => (0xFF, 0x09)
  | .pkSet14 _ _ _ => (0xFF, 0x0A)
  | .pkGet28 _ _ => (0xFF, 0x0B)
  | .pkSet28 _ _ _ => (0xFF, 0x0C)
  | .pkGetn _ _ => (0xFF, 0x0D)
  | .pkSetn _ _ _ => (0xFF, 0x0E)
  | .pkIsfam _ _ => (0xFF, 0x0F)
  | .scUp7To16 _ => (0xFF, 0x10)
  | .scUp7To32 _ => (0xFF, 0x11)
  | .scUp14To16 _ => (0xFF, 0x12)
  | .scUp14To32 _ => (0xFF, 0x13)
  | .scDn16To7 _ => (0xFF, 0x14)
  | .scDn32To7 _ => (0xFF, 0x15)
  | .scDn16To14 _ => (0xFF, 0x16)
  | .scDn32To14 _ => (0xFF, 0x17)
  | .bpFeed _ => (0xFF, 0x20)
  | .bpReset => (0xFF, 0x21)
  | .bpCfg _ _ _ => (0xFF, 0x22)
  | .fc7Feed _ => (0xFF, 0x30)
  | .fc7Reset => (0xFF, 0x31)
  | .fc8Feed _ => (0xFF, 0x40)
  | .fc8Reset => (0xFF, 0x41)
  | .fc8Cfg _ => (0xFF, 0x42)
  | .sxIs7 _ _ => (0xFF, 0x50)
  | .sxIs8 _ _ => (0xFF, 0x51)
  | .sxTotal _ _ => (0xFF, 0x52)
  | .fr7Frag _ _ _ => (0xFF, 0x53)
  | .fr8Frag _ _ _ _ => (0xFF, 0x54)
  | .jrSync _ _ => (0xFF, 0x60)
  | .jrSched _ _ => (0xFF, 0x61)
  | .jrReset => (0xFF, 0x62)
  | .tagUtility _ _ _ => (0xF0000000, 0x00000000)
  | .tagSystem _ _ _ => (0xF0000000, 0x10000000)
  | .tagCv1 _ _ _ => (0xF0000000, 0x20000000)
  | .tagSysex7 _ _ _ _ => (0xF0000000, 0x30000000)
  | .tagCv2 _ _ _ _ => (0xF0000000, 0x40000000)
  | .tagSysex8 _ _ _ _ _ _ => (0xF0000000, 0x50000000)
  | .tagFlex _ _ _ _ _ _ => (0xF0000000, 0xD0000000)
  | .tagStream _ _ _ _ _ _ => (0xF0000000, 0xF0000000)
  | .tagReserved6 _ _ _ => (0xF0000000, 0x60000000)
  | .tagReserved7 _ _ _ => (0xF0000000, 0x70000000)
  | .tagReserved8 _ _ _ => (0xF0000000, 0x80000000)
  | .tagReserved9 _ _ _ => (0xF0000000, 0x90000000)
  | .tagReservedA _ _ _ => (0xF0000000, 0xA0000000)
  | .tagReservedB _ _ _ => (0xF0000000, 0xB0000000)
  | .tagReservedC _ _ _ => (0xF0000000, 0xC0000000)
  | .tagReservedE _ _ _ => (0xF0000000, 0xE0000000)
  | .t3Complete _ _ _ => (0xF0F00000, 0x30000000)
  | .t5Complete _ _ _ _ => (0xF0F00000, 0x50000000)
  | .t3Start _ _ _ => (0xF0F00000, 0x30100000)
  | .t5Start _ _ _ _ => (0xF0F00000, 0x50100000)
  | .t3Cont _ _ _ => (0xF0F00000, 0x30200000)
  | .t5Cont _ _ _ _ => (0xF0F00000, 0x50200000)
  | .t3End _ _ _ => (0xF0F00000, 0x30300000)
  | .t5End _ _ _ _ => (0xF0F00000, 0x50300000)
  | .byteData _ => (0x80, 0x00)
  | .byteCv80 _ => (0xC0, 0x80)
  | .byteCvC0 _ => (0xE0, 0xC0)
  | .byteCvE0 _ => (0xF0, 0xE0)
  | .byteSxStart => (0xFF, 0xF0)
  | .byteScF1 => (0xFF, 0xF1)
  | .byteScF2 => (0xFF, 0xF2)
  | .byteScF3 => (0xFF, 0xF3)
  | .byteUndefF4 => (0xFF, 0xF4)
  | .byteUndefF5 => (0xFF, 0xF5)
  | .byteTune => (0xFF, 0xF6)
  | .byteSxEnd => (0xFF, 0xF7)
  | .byteRtF8 => (0xFF, 0xF8)
  | .byteRtResF9 => (0xFF, 0xF9)
  | .byteRtFA => (0xFF, 0xFA)
  | .byteRtFB => (0xFF, 0xFB)
  | .byteRtFC => (0xFF, 0xFC)
  | .byteRtResFD => (0xFF, 0xFD)
  | .byteRtFE => (0xFF, 0xFE)
  | .byteRtFF => (0xFF, 0xFF)

theorem word0_tagMask (tag g : BitVec 4) (status : Byte) (data : BitVec 16) :
    word0 tag g status data &&& 0xF0000000#32 = tag.setWidth 32 <<< 28 := by
  ext i hi
  simp only [word0, BitVec.getElem_and, BitVec.getElem_append, BitVec.getElem_shiftLeft, BitVec.getElem_setWidth]
  interval_cases i <;> simp

theorem word0_kindMask (tag g k n : BitVec 4) (data : BitVec 16) :
    word0 tag g (k ++ n) data &&& 0xF0F00000#32 = (tag.setWidth 32 <<< 28) ||| (k.setWidth 32 <<< 20) := by
  ext i hi
  simp only [word0, BitVec.getElem_and, BitVec.getElem_or, BitVec.getElem_append, BitVec.getElem_shiftLeft,
    BitVec.getElem_setWidth]
  interval_cases i <;> simp

/-- The fixed bits of the instruction's row stand in its first word. -/
def RowBits.Statement (i : Instr) : Prop := firstWord (encode i) &&& (rowBits i).1 = (rowBits i).2

theorem RowBits.pkMake : ∀ n a0 a1 a2 a3, RowBits.Statement (.pkMake n a0 a1 a2 a3) :=
  by intros; simp [RowBits.Statement, firstWord, encode, rowBits]

theorem RowBits.pkSize : ∀ p, RowBits.Statement (.pkSize p) :=
  by intros; simp [RowBits.Statement, firstWord, encode, rowBits]

theorem RowBits.pkType : ∀ p, RowBits.Statement (.pkType p) :=
  by intros; simp [RowBits.Statement, firstWord, encode, rowBits]

theorem RowBits.pkGroup : ∀ p, RowBits.Statement (.pkGroup p) :=
  by intros; simp [RowBits.Statement, firstWord, encode, rowBits]

theorem RowBits.pkStatus : ∀ p, RowBits.Statement (.pkStatus p) :=
  by intros; simp [RowBits.Statement, firstWord, encode, rowBits]

theorem RowBits.pkGetb : ∀ p i, RowBits.Statement (.pkGetb p i) :=
  by intros; simp [RowBits.Statement, firstWord, encode, rowBits]

theorem RowBits.pkSetb : ∀ p i v, RowBits.Statement (.pkSetb p i v) :=
  by intros; simp [RowBits.Statement, firstWord, encode, rowBits]

theorem RowBits.pkGet7 : ∀ p i, RowBits.Statement (.pkGet7 p i) :=
  by intros; simp [RowBits.Statement, firstWord, encode, rowBits]

theorem RowBits.pkSet7 : ∀ p i v, RowBits.Statement (.pkSet7 p i v) :=
  by intros; simp [RowBits.Statement, firstWord, encode, rowBits]

theorem RowBits.pkGet14 : ∀ p i, RowBits.Statement (.pkGet14 p i) :=
  by intros; simp [RowBits.Statement, firstWord, encode, rowBits]

theorem RowBits.pkSet14 : ∀ p i v, RowBits.Statement (.pkSet14 p i v) :=
  by intros; simp [RowBits.Statement, firstWord, encode, rowBits]

theorem RowBits.pkGet28 : ∀ p i, RowBits.Statement (.pkGet28 p i) :=
  by intros; simp [RowBits.Statement, firstWord, encode, rowBits]

theorem RowBits.pkSet28 : ∀ p i v, RowBits.Statement (.pkSet28 p i v) :=
  by intros; simp [RowBits.Statement, firstWord, encode, rowBits]

theorem RowBits.pkGetn : ∀ p k, RowBits.Statement (.pkGetn p k) :=
  by intros; simp [RowBits.Statement, firstWord, encode, rowBits]

theorem RowBits.pkSetn : ∀ p k v, RowBits.Statement (.pkSetn p k v) :=
  by intros; simp [RowBits.Statement, firstWord, encode, rowBits]

theorem RowBits.pkIsfam : ∀ p f, RowBits.Statement (.pkIsfam p f) :=
  by intros; simp [RowBits.Statement, firstWord, encode, rowBits]

theorem RowBits.scUp7To16 : ∀ v, RowBits.Statement (.scUp7To16 v) :=
  by intros; simp [RowBits.Statement, firstWord, encode, rowBits]

theorem RowBits.scUp7To32 : ∀ v, RowBits.Statement (.scUp7To32 v) :=
  by intros; simp [RowBits.Statement, firstWord, encode, rowBits]

theorem RowBits.scUp14To16 : ∀ v, RowBits.Statement (.scUp14To16 v) :=
  by intros; simp [RowBits.Statement, firstWord, encode, rowBits]

theorem RowBits.scUp14To32 : ∀ v, RowBits.Statement (.scUp14To32 v) :=
  by intros; simp [RowBits.Statement, firstWord, encode, rowBits]

theorem RowBits.scDn16To7 : ∀ v, RowBits.Statement (.scDn16To7 v) :=
  by intros; simp [RowBits.Statement, firstWord, encode, rowBits]

theorem RowBits.scDn32To7 : ∀ v, RowBits.Statement (.scDn32To7 v) :=
  by intros; simp [RowBits.Statement, firstWord, encode, rowBits]

theorem RowBits.scDn16To14 : ∀ v, RowBits.Statement (.scDn16To14 v) :=
  by intros; simp [RowBits.Statement, firstWord, encode, rowBits]

theorem RowBits.scDn32To14 : ∀ v, RowBits.Statement (.scDn32To14 v) :=
  by intros; simp [RowBits.Statement, firstWord, encode, rowBits]

theorem RowBits.bpFeed : ∀ b, RowBits.Statement (.bpFeed b) :=
  by intros; simp [RowBits.Statement, firstWord, encode, rowBits]

theorem RowBits.bpReset : RowBits.Statement .bpReset := by simp [RowBits.Statement, firstWord, encode, rowBits]

theorem RowBits.bpCfg : ∀ g e m, RowBits.Statement (.bpCfg g e m) :=
  by intros; simp [RowBits.Statement, firstWord, encode, rowBits]

theorem RowBits.fc7Feed : ∀ p, RowBits.Statement (.fc7Feed p) :=
  by intros; simp [RowBits.Statement, firstWord, encode, rowBits]

theorem RowBits.fc7Reset : RowBits.Statement .fc7Reset := by simp [RowBits.Statement, firstWord, encode, rowBits]

theorem RowBits.fc8Feed : ∀ p, RowBits.Statement (.fc8Feed p) :=
  by intros; simp [RowBits.Statement, firstWord, encode, rowBits]

theorem RowBits.fc8Reset : RowBits.Statement .fc8Reset := by simp [RowBits.Statement, firstWord, encode, rowBits]

theorem RowBits.fc8Cfg : ∀ max, RowBits.Statement (.fc8Cfg max) :=
  by intros; simp [RowBits.Statement, firstWord, encode, rowBits]

theorem RowBits.sxIs7 : ∀ mid l, RowBits.Statement (.sxIs7 mid l) :=
  by intros; simp [RowBits.Statement, firstWord, encode, rowBits]

theorem RowBits.sxIs8 : ∀ mid l, RowBits.Statement (.sxIs8 mid l) :=
  by intros; simp [RowBits.Statement, firstWord, encode, rowBits]

theorem RowBits.sxTotal : ∀ mid l, RowBits.Statement (.sxTotal mid l) :=
  by intros; simp [RowBits.Statement, firstWord, encode, rowBits]

theorem RowBits.fr7Frag : ∀ mid l g, RowBits.Statement (.fr7Frag mid l g) :=
  by intros; simp [RowBits.Statement, firstWord, encode, rowBits]

theorem RowBits.fr8Frag : ∀ mid l g sid, RowBits.Statement (.fr8Frag mid l g sid) :=
  by intros; simp [RowBits.Statement, firstWord, encode, rowBits]

theorem RowBits.jrSync : ∀ t ts, RowBits.Statement (.jrSync t ts) :=
  by intros; simp [RowBits.Statement, firstWord, encode, rowBits]

theorem RowBits.jrSched : ∀ t ts, RowBits.Statement (.jrSched t ts) :=
  by intros; simp [RowBits.Statement, firstWord, encode, rowBits]

theorem RowBits.jrReset : RowBits.Statement .jrReset := by simp [RowBits.Statement, firstWord, encode, rowBits]

theorem RowBits.tagUtility : ∀ g status data, RowBits.Statement (.tagUtility g status data) :=
  fun g status data => (word0_tagMask _ g status data).trans rfl

theorem RowBits.tagSystem : ∀ g status data, RowBits.Statement (.tagSystem g status data) :=
  fun g status data => (word0_tagMask _ g status data).trans rfl

theorem RowBits.tagCv1 : ∀ g status data, RowBits.Statement (.tagCv1 g status data) :=
  fun g status data => (word0_tagMask _ g status data).trans rfl

theorem RowBits.tagSysex7 : ∀ g status data w1, RowBits.Statement (.tagSysex7 g status data w1) :=
  fun g status data _ => (word0_tagMask _ g status data).trans rfl

theorem RowBits.tagCv2 : ∀ g status data w1, RowBits.Statement (.tagCv2 g status data w1) :=
  fun g status data _ => (word0_tagMask _ g status data).trans rfl

theorem RowBits.tagSysex8 : ∀ g status data w1 w2 w3, RowBits.Statement (.tagSysex8 g status data w1 w2 w3) :=
  fun g status data _ _ _ => (word0_tagMask _ g status data).trans rfl

theorem RowBits.tagFlex : ∀ g status data w1 w2 w3, RowBits.Statement (.tagFlex g status data w1 w2 w3) :=
  fun g status data _ _ _ => (word0_tagMask _ g status data).trans rfl

theorem RowBits.tagStream : ∀ g status data w1 w2 w3, RowBits.Statement (.tagStream g status data w1 w2 w3) :=
  fun g status data _ _ _ => (word0_tagMask _ g status data).trans rfl

theorem RowBits.tagReserved6 : ∀ g status data, RowBits.Statement (.tagReserved6 g status data) :=
  fun g status data => (word0_tagMask _ g status data).trans rfl

theorem RowBits.tagReserved7 : ∀ g status data, RowBits.Statement (.tagReserved7 g status data) :=
  fun g status data => (word0_tagMask _ g status data).trans rfl

theorem RowBits.tagReserved8 : ∀ g status data, RowBits.Statement (.tagReserved8 g status data) :=
  fun g status data => (word0_tagMask _ g status data).trans rfl

theorem RowBits.tagReserved9 : ∀ g status data, RowBits.Statement (.tagReserved9 g status data) :=
  fun g status data => (word0_tagMask _ g status data).trans rfl

theorem RowBits.tagReservedA : ∀ g status data, RowBits.Statement (.tagReservedA g status data) :=
  fun g status data => (word0_tagMask _ g status data).trans rfl

theorem RowBits.tagReservedB : ∀ g status data, RowBits.Statement (.tagReservedB g status data) :=
  fun g status data => (word0_tagMask _ g status data).trans rfl

theorem RowBits.tagReservedC : ∀ g status data, RowBits.Statement (.tagReservedC g status data) :=
  fun g status data => (word0_tagMask _ g status data).trans rfl

theorem RowBits.tagReservedE : ∀ g status data, RowBits.Statement (.tagReservedE g status data) :=
  fun g status data => (word0_tagMask _ g status data).trans rfl

theorem RowBits.t3Complete : ∀ g n data, RowBits.Statement (.t3Complete g n data) :=
  fun g n _ => (word0_kindMask _ g _ n _).trans rfl

theorem RowBits.t5Complete : ∀ g n sid data, RowBits.Statement (.t5Complete g n sid data) :=
  fun g n _ _ => (word0_kindMask _ g _ n _).trans rfl

theorem RowBits.t3Start : ∀ g n data, RowBits.Statement (.t3Start g n data) :=
  fun g n _ => (word0_kindMask _ g _ n _).trans rfl

theorem RowBits.t5Start : ∀ g n sid data, RowBits.Statement (.t5Start g n sid data) :=
  fun g n _ _ => (word0_kindMask _ g _ n _).trans rfl

theorem RowBits.t3Cont : ∀ g n data, RowBits.Statement (.t3Cont g n data) :=
  fun g n _ => (word0_kindMask _ g _ n _).trans rfl

theorem RowBits.t5Cont : ∀ g n sid data, RowBits.Statement (.t5Cont g n sid data) :=
  fun g n _ _ => (word0_kindMask _ g _ n _).trans rfl

theorem RowBits.t3End : ∀ g n data, RowBits.Statement (.t3End g n data) :=
  fun g n _ => (word0_kindMask _ g _ n _).trans rfl

theorem RowBits.t5End : ∀ g n sid data, RowBits.Statement (.t5End g n sid data) :=
  fun g n _ _ => (word0_kindMask _ g _ n _).trans rfl

theorem RowBits.byteData : ∀ v, RowBits.Statement (.byteData v) :=
  by unfold RowBits.Statement; decide

theorem RowBits.byteCv80 : ∀ v, RowBits.Statement (.byteCv80 v) :=
  by unfold RowBits.Statement; decide

theorem RowBits.byteCvC0 : ∀ v, RowBits.Statement (.byteCvC0 v) :=
  by unfold RowBits.Statement; decide

theorem RowBits.byteCvE0 : ∀ v, RowBits.Statement (.byteCvE0 v) :=
  by unfold RowBits.Statement; decide

theorem RowBits.byteSxStart : RowBits.Statement .byteSxStart := by unfold RowBits.Statement; decide

theorem RowBits.byteScF1 : RowBits.Statement .byteScF1 := by unfold RowBits.Statement; decide

theorem RowBits.byteScF2 : RowBits.Statement .byteScF2 := by unfold RowBits.Statement; decide

theorem RowBits.byteScF3 : RowBits.Statement .byteScF3 := by unfold RowBits.Statement; decide

theorem RowBits.byteUndefF4 : RowBits.Statement .byteUndefF4 := by unfold RowBits.Statement; decide

theorem RowBits.byteUndefF5 : RowBits.Statement .byteUndefF5 := by unfold RowBits.Statement; decide

theorem RowBits.byteTune : RowBits.Statement .byteTune := by unfold RowBits.Statement; decide

theorem RowBits.byteSxEnd : RowBits.Statement .byteSxEnd := by unfold RowBits.Statement; decide

theorem RowBits.byteRtF8 : RowBits.Statement .byteRtF8 := by unfold RowBits.Statement; decide

theorem RowBits.byteRtResF9 : RowBits.Statement .byteRtResF9 := by unfold RowBits.Statement; decide

theorem RowBits.byteRtFA : RowBits.Statement .byteRtFA := by unfold RowBits.Statement; decide

theorem RowBits.byteRtFB : RowBits.Statement .byteRtFB := by unfold RowBits.Statement; decide

theorem RowBits.byteRtFC : RowBits.Statement .byteRtFC := by unfold RowBits.Statement; decide

theorem RowBits.byteRtResFD : RowBits.Statement .byteRtResFD := by unfold RowBits.Statement; decide

theorem RowBits.byteRtFE : RowBits.Statement .byteRtFE := by unfold RowBits.Statement; decide

theorem RowBits.byteRtFF : RowBits.Statement .byteRtFF := by unfold RowBits.Statement; decide

end Sys2Proof.Laws
end

