-- ==== Sys2Proof/Tests/Slice0.lean ====
section
/-! SUPPORT. The model's own tests. Every expected value is taken from spec/95_test_vectors.md (the vector is named)
or from the rule named; the packets and codes are written out from 30_encoding.md. The last part shows, for every
obligation with hypotheses, a state and operands that meet them. -/

namespace Sys2Proof.Tests

open Sys2Proof.Machine

/-! ## Helpers -/

/-- The parameters the vectors use (95_test_vectors.md, opening): the defaults, with 32 time units a tick. -/
def params : Params := ⟨32, 6, 5, 0, none, false, none, none⟩

/-- A machine at power-on that addresses instance 0 of `u`. -/
def at0 (u : UnitKind) : State := { State.reset with params := params, target := ⟨u, 0⟩ }

/-- Instance 0 of BP, FC7, FC8 or JR holding `u`, and addressed. -/
def bpIn (u : Bp) : State := { at0 .bp with bp := [(0, u)] }
def fc7In (u : Fc7) : State := { at0 .fc7 with fc7 := [(0, u)] }
def fc8In (u : Fc8) : State := { at0 .fc8 with fc8 := [(0, u)] }
def jrIn (u : Jr) : State := { at0 .jr with jr := [(0, u)] }

/-- The last response of a step. -/
def said (x : Step) : Option Response :=
  match x with
  | .next t => t.responses.getLast?
  | .fault _ => none
  | .refused _ => none

/-- The state after a step. -/
def after (x : Step) : Option State :=
  match x with
  | .next t => some t
  | .fault _ => none
  | .refused _ => none

/-- A response that only returns `v`. -/
def gives (v : Result) : Option Response := some ⟨.ok, some v, []⟩
/-- A response that only emits `ev`. -/
def emits (ev : List Event) : Option Response := some ⟨.ok, none, ev⟩
/-- A fault or a refusal. -/
def faults (r : FaultReason) : Option Response := some ⟨.fault r, none, []⟩
def refuses (r : RefuseReason) : Option Response := some ⟨.refused r, none, []⟩

/-- Instance 0 of a unit after a step. -/
def bpAfter (x : Step) : Option Bp := (after x).map fun t => t.bpAt 0
def fc7After (x : Step) : Option Fc7 := (after x).map fun t => t.fc7At 0
def fc8After (x : Step) : Option Fc8 := (after x).map fun t => t.fc8At 0
def jrAfter (x : Step) : Option Jr := (after x).map fun t => t.jrAt 0

/-- One, two and four words as a packet. -/
def p1 (a : Word) : Packet := ⟨a, 0, 0, 0⟩
def p2 (a b : Word) : Packet := ⟨a, b, 0, 0⟩

/-- A seven-bit collector inside a message, after the START of V52. -/
def contFc7 : Fc7 := ⟨.cont, ⟨3, 0x410000, [1, 2, 3, 4, 5]⟩⟩

/-! ## Well-formedness: an ill-formed term for each check -/

theorem test_wf_pkMake : (Instr.pkMake 5 0 0 0 0).wellFormed = false ∧ (Instr.pkMake 0 0 0 0 0).wellFormed = false ∧
    (Instr.pkMake 4 0 0 0 0).wellFormed = true := by decide
theorem test_wf_pkGroup : (Instr.pkGroup (p1 0x0F000000)).wellFormed = false ∧
    (Instr.pkGroup (p1 0x10000000)).wellFormed = true := by decide
theorem test_wf_fields14 : (Instr.pkGet14 (p1 0) 15).wellFormed = false ∧
    (Instr.pkSet14 (p1 0) 15 0).wellFormed = false ∧ (Instr.pkGet14 (p1 0) 14).wellFormed = true ∧
    (Instr.pkSet14 (p1 0) 14 0).wellFormed = true := by decide
theorem test_wf_fields28 : (Instr.pkGet28 (p1 0) 13).wellFormed = false ∧
    (Instr.pkSet28 (p1 0) 13 0).wellFormed = false ∧ (Instr.pkGet28 (p1 0) 12).wellFormed = true ∧
    (Instr.pkSet28 (p1 0) 12 0).wellFormed = true := by decide
theorem test_wf_pkIsfam : (Instr.pkIsfam (p1 0) 6).wellFormed = false ∧
    (Instr.pkIsfam (p1 0) 0xE).wellFormed = false ∧ (Instr.pkIsfam (p1 0) 0xF).wellFormed = true := by decide
theorem test_wf_fragmenters : (Instr.fr7Frag 0x410001 [] 0).wellFormed = false ∧
    (Instr.fr8Frag 0x002180 [] 0 0).wellFormed = false ∧ (Instr.fr7Frag 0x810000 [] 0).wellFormed = false ∧
    (Instr.fr8Frag 0x410000 [] 0 0).wellFormed = true := by decide
theorem test_wf_t3 : (Instr.t3Complete 0 7 0).wellFormed = false ∧ (Instr.t3Start 0 7 0).wellFormed = false ∧
    (Instr.t3Cont 0 7 0).wellFormed = false ∧ (Instr.t3End 0 7 0).wellFormed = false ∧
    (Instr.t3End 0 6 0).wellFormed = true := by decide
theorem test_wf_t5 : (Instr.t5Complete 0 0 0 0).wellFormed = false ∧ (Instr.t5Start 0 15 0 0).wellFormed = false ∧
    (Instr.t5Cont 0 0 0 0).wellFormed = false ∧ (Instr.t5End 0 15 0 0).wellFormed = false ∧
    (Instr.t5End 0 14 0 0).wellFormed = true := by decide

/-! ## Decoding, constructor by constructor (the codes of R94 with the operand fields of R96) -/

theorem test_decode_pk_queries :
    decode (.cmd 0x00 [.num 2, .num 0x30011200, .num 0xDEADBEEF, .num 1, .num 2]) =
      .ok (.pkMake 2 0x30011200 0xDEADBEEF 1 2) ∧
    decode (.cmd 0x01 [.packet (p1 0x50000000)]) = .ok (.pkSize (p1 0x50000000)) ∧
    decode (.cmd 0x02 [.packet (p1 0x20901234)]) = .ok (.pkType (p1 0x20901234)) ∧
    decode (.cmd 0x03 [.packet (p1 0x23901234)]) = .ok (.pkGroup (p1 0x23901234)) ∧
    decode (.cmd 0x04 [.packet (p1 0x20901234)]) = .ok (.pkStatus (p1 0x20901234)) ∧
    decode (.cmd 0x0F [.packet (p1 0x30170000), .num 3]) = .ok (.pkIsfam (p1 0x30170000) 3) := by decide
theorem test_decode_pk_bytes :
    decode (.cmd 0x05 [.packet (p1 0x20901234), .num 15]) = .ok (.pkGetb (p1 0x20901234) 15) ∧
    decode (.cmd 0x06 [.packet (p1 0x20901234), .num 3, .num 0x7F]) = .ok (.pkSetb (p1 0x20901234) 3 0x7F) ∧
    decode (.cmd 0x07 [.packet (p1 0x209012B4), .num 3]) = .ok (.pkGet7 (p1 0x209012B4) 3) ∧
    decode (.cmd 0x08 [.packet (p1 0x20901200), .num 3, .num 0xFF]) = .ok (.pkSet7 (p1 0x20901200) 3 0xFF) ∧
    decode (.cmd 0x05 [.packet (p1 0), .num 16]) = .error (.badOperands 0x05) := by decide
theorem test_decode_pk_fields :
    decode (.cmd 0x09 [.packet (p1 0x20E00040), .num 2]) = .ok (.pkGet14 (p1 0x20E00040) 2) ∧
    decode (.cmd 0x0A [.packet (p1 0x20E00000), .num 2, .num 0x3FFF]) = .ok (.pkSet14 (p1 0x20E00000) 2 0x3FFF) ∧
    decode (.cmd 0x0B [.packet (p1 0x30000102), .num 12]) = .ok (.pkGet28 (p1 0x30000102) 12) ∧
    decode (.cmd 0x0C [.packet (p1 0), .num 12, .num 0x1234567]) = .ok (.pkSet28 (p1 0) 12 0x1234567) ∧
    decode (.cmd 0x0D [.packet (p1 0x20901234), .num 31]) = .ok (.pkGetn (p1 0x20901234) 31) ∧
    decode (.cmd 0x0E [.packet (p1 0x20901234), .num 31, .num 0xF]) = .ok (.pkSetn (p1 0x20901234) 31 0xF) ∧
    decode (.cmd 0x0A [.packet (p1 0), .num 2, .num 0x4000]) = .error (.badOperands 0x0A) := by decide
theorem test_decode_sc :
    decode (.cmd 0x10 [.num 0x41]) = .ok (.scUp7To16 0x41) ∧ decode (.cmd 0x11 [.num 0x7F]) = .ok (.scUp7To32 0x7F) ∧
    decode (.cmd 0x12 [.num 0x2001]) = .ok (.scUp14To16 0x2001) ∧
    decode (.cmd 0x13 [.num 0x3FFF]) = .ok (.scUp14To32 0x3FFF) ∧
    decode (.cmd 0x14 [.num 0xFFFF]) = .ok (.scDn16To7 0xFFFF) ∧
    decode (.cmd 0x15 [.num 0x80000000]) = .ok (.scDn32To7 0x80000000) ∧
    decode (.cmd 0x16 [.num 0xC000]) = .ok (.scDn16To14 0xC000) ∧
    decode (.cmd 0x17 [.num 0x1FFFFFF]) = .ok (.scDn32To14 0x1FFFFFF) ∧
    decode (.cmd 0x10 [.num 0x80]) = .error (.badOperands 0x10) := by decide
theorem test_decode_bp_fc :
    decode (.cmd 0x20 [.num 0x90]) = .ok (.bpFeed 0x90) ∧ decode (.cmd 0x21 []) = .ok .bpReset ∧
    decode (.cmd 0x22 [.num 3, .num 1, .num 0]) = .ok (.bpCfg 3 1 0) ∧
    decode (.cmd 0x30 [.packet (p2 0x30034101 0x02000000)]) = .ok (.fc7Feed (p2 0x30034101 0x02000000)) ∧
    decode (.cmd 0x31 []) = .ok .fc7Reset ∧
    decode (.cmd 0x40 [.packet (p2 0x50040741 0x10200000)]) = .ok (.fc8Feed (p2 0x50040741 0x10200000)) ∧
    decode (.cmd 0x41 []) = .ok .fc8Reset ∧ decode (.cmd 0x42 [.limit none]) = .ok (.fc8Cfg none) ∧
    decode (.cmd 0x42 [.limit (some 2)]) = .ok (.fc8Cfg (some 2)) ∧
    decode (.cmd 0x21 [.num 0]) = .error (.badOperands 0x21) := by decide
theorem test_decode_sx_fr_jr :
    decode (.cmd 0x50 [.num 0x410000, .bytes [0x01, 0x7F]]) = .ok (.sxIs7 0x410000 [0x01, 0x7F]) ∧
    decode (.cmd 0x51 [.num 0x410000, .bytes []]) = .ok (.sxIs8 0x410000 []) ∧
    decode (.cmd 0x52 [.num 0x002109, .bytes [1, 2]]) = .ok (.sxTotal 0x002109 [1, 2]) ∧
    decode (.cmd 0x53 [.num 0x410000, .bytes [1, 2], .num 10]) = .ok (.fr7Frag 0x410000 [1, 2] 10) ∧
    decode (.cmd 0x54 [.num 0x410000, .bytes [0x80], .num 0, .num 7]) = .ok (.fr8Frag 0x410000 [0x80] 0 7) ∧
    decode (.cmd 0x60 [.num 1000, .num 100]) = .ok (.jrSync 1000 100) ∧
    decode (.cmd 0x61 [.num 1100, .num 110]) = .ok (.jrSched 1100 110) ∧ decode (.cmd 0x62 []) = .ok .jrReset ∧
    decode (.cmd 0x55 []) = .error (.reservedCmd 0x55) ∧ decode (.cmd 0xFF []) = .error (.reservedCmd 0xFF) := by decide
/-- R91, R92, R106: the tag is bits [31:28] and decides how many words there are. -/
theorem test_decode_tags_one_word :
    decode (.packet .w0 ⟨0x01234567, 0, 0, 0⟩) = .ok (.tagUtility 1 0x23 0x4567) ∧
    decode (.packet .w0 ⟨0x1F804567, 0, 0, 0⟩) = .ok (.tagSystem 0xF 0x80 0x4567) ∧
    decode (.packet .w0 ⟨0x20901234, 0, 0, 0⟩) = .ok (.tagCv1 0 0x90 0x1234) ∧
    decode (.packet .w0 ⟨0x61234567, 0, 0, 0⟩) = .ok (.tagReserved6 1 0x23 0x4567) ∧
    decode (.packet .w0 ⟨0x71234567, 0, 0, 0⟩) = .ok (.tagReserved7 1 0x23 0x4567) ∧
    decode (.packet .w0 ⟨0x81234567, 0, 0, 0⟩) = .ok (.tagReserved8 1 0x23 0x4567) ∧
    decode (.packet .w0 ⟨0x91234567, 0, 0, 0⟩) = .ok (.tagReserved9 1 0x23 0x4567) ∧
    decode (.packet .w0 ⟨0xA1234567, 0, 0, 0⟩) = .ok (.tagReservedA 1 0x23 0x4567) ∧
    decode (.packet .w0 ⟨0xB1234567, 0, 0, 0⟩) = .ok (.tagReservedB 1 0x23 0x4567) ∧
    decode (.packet .w0 ⟨0xC1234567, 0, 0, 0⟩) = .ok (.tagReservedC 1 0x23 0x4567) ∧
    decode (.packet .w0 ⟨0xE1234567, 0, 0, 0⟩) = .ok (.tagReservedE 1 0x23 0x4567) := by decide
theorem test_decode_tags_more_words :
    decode (.packet .w0 ⟨0x30160102, 0x03040506, 0, 0⟩) = .ok (.tagSysex7 0 0x16 0x0102 0x03040506) ∧
    decode (.packet .w0 ⟨0x40903C00, 0x80000000, 0, 0⟩) = .ok (.tagCv2 0 0x90 0x3C00 0x80000000) ∧
    decode (.packet .w0 ⟨0x50040741, 0x10200000, 0, 1⟩) = .ok (.tagSysex8 0 0x04 0x0741 0x10200000 0 1) ∧
    decode (.packet .w0 ⟨0xD1234567, 8, 9, 10⟩) = .ok (.tagFlex 1 0x23 0x4567 8 9 10) ∧
    decode (.packet .w0 ⟨0xF0000102, 1, 2, 3⟩) = .ok (.tagStream 0 0 0x0102 1 2 3) ∧
    decode (.packet .w0 ⟨0x30160102, 0, 1, 0⟩) = .error (.noRow .w0 ⟨0x30160102, 0, 1, 0⟩) ∧
    decode (.packet .w0 (p2 0x20901234 1)) = .error (.noRow .w0 (p2 0x20901234 1)) := by decide
/-- R99 to R101: the kind is w0[23:20], the count w0[19:16], the data bytes from w0[15:8] on; the packets are
those of V50, V52, V60, V62. -/
theorem test_decode_fragments :
    decode (.packet .t3 ⟨0x30034101, 0x02000000, 0, 0⟩) = .ok (.t3Complete 0 3 0x410102000000) ∧
    decode (.packet .t3 ⟨0x32160102, 0x03040506, 0, 0⟩) = .ok (.t3Start 2 6 0x010203040506) ∧
    decode (.packet .t3 ⟨0x30220405, 0, 0, 0⟩) = .ok (.t3Cont 0 2 0x040500000000) ∧
    decode (.packet .t3 ⟨0x30310600, 0, 0, 0⟩) = .ok (.t3End 0 1 0x060000000000) ∧
    decode (.packet .t3 ⟨0x30404100, 0, 0, 0⟩) = .error (.noRow .t3 (p1 0x30404100)) ∧
    decode (.packet .t5 ⟨0x50040741, 0x10200000, 0, 0⟩) = .ok (.t5Complete 0 4 7 0x41102000000000000000000000) ∧
    decode (.packet .t5 ⟨0x501E0741, 0x01020304, 0x05060708, 0x090A0B0C⟩) =
      .ok (.t5Start 0 14 7 0x410102030405060708090A0B0C) ∧
    decode (.packet .t5 ⟨0x50220955, 0, 0, 0⟩) = .ok (.t5Cont 0 2 9 0x55000000000000000000000000) ∧
    decode (.packet .t5 ⟨0x5032070D, 0, 0, 0⟩) = .ok (.t5End 0 2 7 0x0D000000000000000000000000) ∧
    decode (.packet .t5 ⟨0x30034101, 0, 0, 0⟩) = .error (.noRow .t5 (p1 0x30034101)) := by decide
/-- R103, at the edges of every class. -/
theorem test_decode_bytes :
    decode (.byte 0x00) = .ok (.byteData 0) ∧ decode (.byte 0x7F) = .ok (.byteData 0x7F) ∧
    decode (.byte 0x80) = .ok (.byteCv80 0) ∧ decode (.byte 0xBF) = .ok (.byteCv80 0x3F) ∧
    decode (.byte 0xC0) = .ok (.byteCvC0 0) ∧ decode (.byte 0xDF) = .ok (.byteCvC0 0x1F) ∧
    decode (.byte 0xE0) = .ok (.byteCvE0 0) ∧ decode (.byte 0xEF) = .ok (.byteCvE0 0xF) ∧
    decode (.byte 0xF0) = .ok .byteSxStart ∧ decode (.byte 0xF1) = .ok .byteScF1 ∧ decode (.byte 0xF2) = .ok .byteScF2 ∧
    decode (.byte 0xF3) = .ok .byteScF3 ∧ decode (.byte 0xF4) = .ok .byteUndefF4 ∧
    decode (.byte 0xF5) = .ok .byteUndefF5 ∧ decode (.byte 0xF6) = .ok .byteTune ∧ decode (.byte 0xF7) = .ok .byteSxEnd ∧
    decode (.byte 0xF8) = .ok .byteRtF8 ∧ decode (.byte 0xF9) = .ok .byteRtResF9 ∧ decode (.byte 0xFA) = .ok .byteRtFA ∧
    decode (.byte 0xFB) = .ok .byteRtFB ∧ decode (.byte 0xFC) = .ok .byteRtFC ∧ decode (.byte 0xFD) = .ok .byteRtResFD ∧
    decode (.byte 0xFE) = .ok .byteRtFE ∧ decode (.byte 0xFF) = .ok .byteRtFF := by decide

/-! ## Opcode-table words and the step (log 9) -/

theorem test_table_words :
    decodeTableWord 8 0x21 = some .bpReset ∧ decodeTableWord 8 0x16 = some (.scDn16To14 0) ∧
    decodeTableWord 8 0x90 = some (.byteCv80 0x10) ∧ decodeTableWord 8 0x7F = some (.byteData 0x7F) ∧
    decodeTableWord 32 0x20901234 = some (.tagCv1 0 0x90 0x1234) ∧
    decodeTableWord 32 0x30160102 = some (.t3Start 0 6 0x010200000000) ∧
    decodeTableWord 32 0x50320700 = some (.t5End 0 2 7 0) ∧
    decodeTableWord 32 0x30400000 = some (.tagSysex7 0 0x40 0 0) := by decide
/-- A table word is run by the very next step. -/
theorem test_step_runs_table_word :
    said (step ((at0 .pk).withFetchWord 32 0xD0000000)) = gives (.bits3 4) ∧
    said (step ((at0 .pk).withFetchWord 8 0xF8)) = emits [.packet (p1 0x10F80000)] ∧
    said (step ((at0 .pk).withFetchWord 8 0x10)) = gives (.bits16 0) := by decide
/-- R95, R326: a reserved code comes before the unit check. -/
theorem test_step_reserved :
    said (step { at0 .pk with inbox := [⟨⟨.sc, 0⟩, .cmd 0x18 [.num 1]⟩] }) = refuses .reservedCmd ∧
    said (step { at0 .pk with inbox := [⟨⟨.jr, 0⟩, .cmd 0x30 [.packet (p1 0)]⟩] }) = refuses .wrongUnit := by decide
/-- R105 (V57, V61): a reserved kind, another tag and a reserved tag presented to a collector in a message are ignored;
R30 and R130: a packet with words beyond its word count has the size its tag gives. -/
theorem test_step_packets_without_a_row :
    fc7After (step { fc7In contFc7 with inbox := [⟨⟨.fc7, 0⟩, .packet .t3 (p1 0x30404100)⟩] }) = some contFc7 ∧
    said (step { fc7In contFc7 with inbox := [⟨⟨.fc7, 0⟩, .packet .t3 (p2 0x50040741 0x10200000)⟩] }) = emits [] ∧
    said (step { at0 .pk with inbox := [⟨⟨.fc8, 0⟩, .packet .t5 (p1 0x504107FF)⟩] }) = emits [] ∧
    said (step { at0 .pk with inbox := [⟨⟨.fc8, 0⟩, .packet .t5 (p1 0x60000000)⟩] }) = emits [] ∧
    said (step { at0 .pk with inbox := [⟨⟨.pk, 0⟩, .packet .w0 (p2 0x20901234 1)⟩] }) = gives (.bits3 1) := by decide

/-! ## PK (V17 to V24) -/

theorem test_pkMake : said (exec (.pkMake 2 0x30011200 0xDEADBEEF 1 2) (at0 .pk)) = gives (.packet (p2 0x30011200 0xDEADBEEF)) ∧
    said (exec (.pkMake 1 0x50000000 0x11 0x22 0x33) (at0 .pk)) = gives (.packet (p1 0x50000000)) ∧
    said (exec (.pkMake 4 0x20901234 1 2 3) (at0 .pk)) = gives (.packet ⟨0x20901234, 1, 2, 3⟩) := by decide
theorem test_pkMake_faults : said (exec (.pkMake 0 1 2 3 4) (at0 .pk)) = faults .badWordCount ∧
    said (exec (.pkMake 5 1 2 3 4) (at0 .pk)) = faults .badWordCount := by decide
theorem test_pkSize : said (exec (.pkSize (p1 0x50000000)) (at0 .pk)) = gives (.bits3 4) ∧
    said (exec (.pkSize (p1 0x3FFFFFFF)) (at0 .pk)) = gives (.bits3 2) ∧
    said (exec (.pkSize (p1 0xEFFFFFFF)) (at0 .pk)) = gives (.bits3 1) := by decide
theorem test_pkType_pkStatus : said (exec (.pkType (p1 0x20901234)) (at0 .pk)) = gives (.bits4 2) ∧
    said (exec (.pkStatus (p1 0x20901234)) (at0 .pk)) = gives (.bits8 0x90) ∧
    said (exec (.pkStatus (p1 0x00FF0000)) (at0 .pk)) = gives (.bits8 0xFF) := by decide
theorem test_pkGroup : said (exec (.pkGroup (p1 0x23901234)) (at0 .pk)) = gives (.bits4 3) ∧
    said (exec (.pkGroup (p1 0x1F000000)) (at0 .pk)) = gives (.bits4 0xF) ∧
    said (exec (.pkGroup (p1 0x0F000000)) (at0 .pk)) = faults .grouplessUtility := by decide
theorem test_pkGetb : said (exec (.pkGetb (p1 0x20901234) 0) (at0 .pk)) = gives (.bits8 0x20) ∧
    said (exec (.pkGetb (p2 0x30000000 0x11223344) 7) (at0 .pk)) = gives (.bits8 0x44) := by decide
theorem test_pkSetb : said (exec (.pkSetb (p1 0x20901234) 3 0x7F) (at0 .pk)) = gives (.packet (p1 0x2090127F)) ∧
    said (exec (.pkSetb (p1 0x20901234) 5 0xAB) (at0 .pk)) = gives (.packet (p2 0x20901234 0x00AB0000)) := by decide
theorem test_pkGet7 : said (exec (.pkGet7 (p1 0x209012B4) 3) (at0 .pk)) = gives (.bits7 0x34) ∧
    said (exec (.pkGet7 (p1 0x20901234) 1) (at0 .pk)) = gives (.bits7 0x10) := by decide
theorem test_pkSet7 : said (exec (.pkSet7 (p1 0x20901200) 3 0xFF) (at0 .pk)) = gives (.packet (p1 0x2090127F)) := by decide
theorem test_pkGet14 : said (exec (.pkGet14 (p1 0x20E00040) 2) (at0 .pk)) = gives (.bits14 0x2000) ∧
    said (exec (.pkGet14 ⟨0x40000000, 0, 0, 0x00007F7F⟩ 14) (at0 .pk)) = gives (.bits14 0x3FFF) ∧
    said (exec (.pkGet14 (p1 0x20E00040) 15) (at0 .pk)) = faults .fieldRange := by decide
theorem test_pkSet14 : said (exec (.pkSet14 (p1 0x20E00000) 2 0x3000) (at0 .pk)) = gives (.packet (p1 0x20E00060)) ∧
    said (exec (.pkSet14 (p1 0x40000000) 14 0x2001) (at0 .pk)) = gives (.packet ⟨0x40000000, 0, 0, 0x00000140⟩) ∧
    said (exec (.pkSet14 (p1 0x40000000) 15 0x2001) (at0 .pk)) = faults .fieldRange := by decide
theorem test_pkGet28 : said (exec (.pkGet28 (p2 0x30000102 0x03040000) 2) (at0 .pk)) = gives (.bits28 0x080C101) ∧
    said (exec (.pkGet28 ⟨0x40000000, 0, 0, 0x7F7F7F7F⟩ 12) (at0 .pk)) = gives (.bits28 0xFFFFFFF) ∧
    said (exec (.pkGet28 (p1 0) 13) (at0 .pk)) = faults .fieldRange := by decide
theorem test_pkSet28 : said (exec (.pkSet28 (p1 0x50000000) 12 0x1234567) (at0 .pk)) = gives (.packet ⟨0x50000000, 0, 0, 0x670A0D09⟩) ∧
    said (exec (.pkSet28 (p1 0x30000000) 2 0x0FFFFFFF) (at0 .pk)) = gives (.packet (p2 0x30007F7F 0x7F7F0000)) ∧
    said (exec (.pkSet28 (p1 0) 13 0) (at0 .pk)) = faults .fieldRange := by decide
theorem test_pkGetn : said (exec (.pkGetn (p1 0x20901234) 2) (at0 .pk)) = gives (.bits4 9) ∧
    said (exec (.pkGetn (p2 0x20901234 0xABCDEF01) 15) (at0 .pk)) = gives (.bits4 1) := by decide
theorem test_pkSetn : said (exec (.pkSetn (p1 0x20901234) 1 5) (at0 .pk)) = gives (.packet (p1 0x25901234)) ∧
    said (exec (.pkSetn (p1 0x20901234) 31 0xF) (at0 .pk)) = gives (.packet ⟨0x20901234, 0, 0, 0xF⟩) ∧
    said (exec (.pkSetn (p1 0) 1 3) (at0 .pk)) = gives (.packet (p1 0x03000000)) := by decide
theorem test_pkIsfam_true : ((([(p1 0, 0x0), (p1 0x10F80000, 0x1), (p1 0x10F60000, 0x1), (p1 0x20900000, 0x2), (p1 0x30060000, 0x3),
      (p1 0x30160000, 0x3), (p1 0x40000000, 0x4), (p1 0x50010000, 0x5), (p1 0x503E0000, 0x5), (p1 0xD0000000, 0xD),
      (p1 0xF0000000, 0xF)] : List (Packet × BitVec 4)).all
      fun x => decide (said (exec (.pkIsfam x.1 x.2) (at0 .pk)) = gives (.bit true)))) = true := by decide
theorem test_pkIsfam_false : ((([(p1 0x10F90000, 0x1), (p1 0x10F40000, 0x1), (p1 0x20700000, 0x2), (p1 0x20F00000, 0x2), (p1 0x30170000, 0x3),
      (p1 0x30400000, 0x3), (p1 0x50000000, 0x5), (p1 0x503F0000, 0x5), (p1 0x50410000, 0x5), (p1 0x20900000, 0x3)] :
      List (Packet × BitVec 4)).all
      fun x => decide (said (exec (.pkIsfam x.1 x.2) (at0 .pk)) = gives (.bit false)))) = true ∧
    said (exec (.pkIsfam (p1 0x60000000) 6) (at0 .pk)) = refuses .noSuchFamily := by decide
/-- V2: every tag, with the other bits all 1. -/
theorem test_tag_rows : ([Instr.tagUtility 0xF 0xFF 0xFFFF, .tagSystem 0xF 0xFF 0xFFFF, .tagCv1 0xF 0xFF 0xFFFF,
      .tagSysex7 0xF 0xFF 0xFFFF 1, .tagCv2 0xF 0xFF 0xFFFF 1, .tagSysex8 0xF 0xFF 0xFFFF 1 1 1, .tagReserved6 0xF 0xFF 0xFFFF,
      .tagReserved7 0xF 0xFF 0xFFFF, .tagReserved8 0xF 0xFF 0xFFFF, .tagReserved9 0xF 0xFF 0xFFFF,
      .tagReservedA 0xF 0xFF 0xFFFF, .tagReservedB 0xF 0xFF 0xFFFF, .tagReservedC 0xF 0xFF 0xFFFF,
      .tagFlex 0xF 0xFF 0xFFFF 1 1 1, .tagReservedE 0xF 0xFF 0xFFFF, .tagStream 0xF 0xFF 0xFFFF 1 1 1].map
      fun i => said (exec i (at0 .pk))) =
    [1, 1, 1, 2, 2, 4, 1, 1, 1, 1, 1, 1, 1, 4, 1, 4].map fun n => gives (.bits3 n) := by decide

/-! ## SC (V8 to V15) -/

theorem test_scUp7To16 : said (exec (.scUp7To16 0x41) (at0 .sc)) = gives (.bits16 0x8208) ∧
    said (exec (.scUp7To16 0x3F) (at0 .sc)) = gives (.bits16 0x7E00) ∧
    said (exec (.scUp7To16 0x7E) (at0 .sc)) = gives (.bits16 0xFDF7) := by decide
theorem test_scUp7To32 : said (exec (.scUp7To32 0x41) (at0 .sc)) = gives (.bits32 0x82082082) ∧
    said (exec (.scUp7To32 0x7E) (at0 .sc)) = gives (.bits32 0xFDF7DF7D) := by decide
theorem test_scUp14To16 : said (exec (.scUp14To16 0x2001) (at0 .sc)) = gives (.bits16 0x8004) ∧
    said (exec (.scUp14To16 0x3000) (at0 .sc)) = gives (.bits16 0xC002) := by decide
theorem test_scUp14To32 : said (exec (.scUp14To32 0x2001) (at0 .sc)) = gives (.bits32 0x80040020) ∧
    said (exec (.scUp14To32 0x3FFE) (at0 .sc)) = gives (.bits32 0xFFFBFFDF) := by decide
theorem test_scDn : said (exec (.scDn16To7 0xFFFF) (at0 .sc)) = gives (.bits7 0x7F) ∧
    said (exec (.scDn16To7 0x1FF) (at0 .sc)) = gives (.bits7 0) ∧
    said (exec (.scDn32To7 0x80000000) (at0 .sc)) = gives (.bits7 0x40) ∧
    said (exec (.scDn32To7 0x1FFFFFF) (at0 .sc)) = gives (.bits7 0) ∧
    said (exec (.scDn16To14 0xC000) (at0 .sc)) = gives (.bits14 0x3000) ∧
    said (exec (.scDn16To14 0x3) (at0 .sc)) = gives (.bits14 0) ∧
    said (exec (.scDn32To14 0x1FFFFFF) (at0 .sc)) = gives (.bits14 0x7F) ∧
    said (exec (.scDn32To14 0x3FFFF) (at0 .sc)) = gives (.bits14 0) := by decide

/-! ## BP (V31 to V39), each about one byte -/

/-- A parser with running status `q`, idle. -/
def ranBp (q : Byte) : Bp := { Bp.powerOn with rs := some q }
/-- A parser inside a channel-voice message with one of two data bytes, `a`. -/
def halfBp (q a : Byte) : Bp := { Bp.powerOn with st := some q, rs := some q, need := 1, cur := 1, d0 := a }
/-- A parser inside system exclusive, PACKETS mode, holding `fb`. -/
def sxBp (fb : Bytes) (first : Bool) : Bp := { Bp.powerOn with sx := true, fb := fb, ffirst := first }
/-- A parser inside system exclusive, PAYLOAD mode. -/
def payBp (a : Accum) : Bp := { Bp.powerOn with cfgMode := .payload, sx := true, acc := a }

theorem test_bp_status : bpAfter (exec (.bpFeed 0x90) (bpIn (halfBp 0x80 0x12))) =
      some { Bp.powerOn with st := some 0x90, rs := some 0x90, need := 2 } ∧
    bpAfter (exec (.byteCvC0 0x05) (at0 .bp)) = some { Bp.powerOn with st := some 0xC5, rs := some 0xC5, need := 1 } ∧
    bpAfter (exec (.byteCvE0 3) (at0 .bp)) = some { Bp.powerOn with st := some 0xE3, rs := some 0xE3, need := 2 } ∧
    bpAfter (exec (.byteCv80 0x3F) (at0 .bp)) = some { Bp.powerOn with st := some 0xBF, rs := some 0xBF, need := 2 } := by decide
theorem test_bp_data : bpAfter (exec (.byteData 0x12) (at0 .bp)) = some Bp.powerOn ∧
    bpAfter (exec (.bpFeed 0x12) (bpIn (ranBp 0x90))) = some (halfBp 0x90 0x12) ∧
    bpAfter (exec (.byteData 0x34) (bpIn (halfBp 0x90 0x12))) = some (ranBp 0x90) ∧
    said (exec (.byteData 0x34) (bpIn (halfBp 0x90 0x12))) = emits [.packet (p1 0x20901234)] ∧
    said (exec (.bpFeed 0x08) (bpIn (ranBp 0xC5))) = emits [.packet (p1 0x20C50800)] := by decide
theorem test_bp_system_common : bpAfter (exec .byteScF1 (bpIn (ranBp 0x90))) = some { Bp.powerOn with st := some 0xF1, need := 1 } ∧
    bpAfter (exec .byteScF2 (at0 .bp)) = some { Bp.powerOn with st := some 0xF2, need := 2 } ∧
    bpAfter (exec .byteScF3 (at0 .bp)) = some { Bp.powerOn with st := some 0xF3, need := 1 } ∧
    said (exec (.bpFeed 0x20) (bpIn { Bp.powerOn with st := some 0xF2, need := 1, cur := 1, d0 := 0x10 })) =
      emits [.packet (p1 0x10F21020)] := by decide
theorem test_bp_tune_and_undefined : said (exec .byteTune (bpIn (ranBp 0x90))) = emits [.packet (p1 0x10F60000)] ∧
    bpAfter (exec .byteTune (bpIn (ranBp 0x90))) = some Bp.powerOn ∧
    bpAfter (exec .byteUndefF4 (bpIn (halfBp 0x90 0x12))) = some Bp.powerOn ∧
    said (exec .byteUndefF5 (bpIn (halfBp 0x90 0x12))) = emits [] ∧
    bpAfter (exec .byteUndefF5 (bpIn (halfBp 0x90 0x12))) = some Bp.powerOn ∧
    bpAfter (exec .byteSxEnd (bpIn (halfBp 0x90 0x12))) = some Bp.powerOn := by decide
theorem test_bp_real_time : ([Instr.byteRtF8, .byteRtFA, .byteRtFB, .byteRtFC, .byteRtFE, .byteRtFF].map
      fun i => (said (exec i (bpIn (sxBp [1] true))), bpAfter (exec i (bpIn (sxBp [1] true))))) =
    [0x10F80000, 0x10FA0000, 0x10FB0000, 0x10FC0000, 0x10FE0000, 0x10FF0000].map
      fun w => (emits [.packet (p1 w)], some (sxBp [1] true)) := by decide
theorem test_bp_reserved_real_time : said (exec .byteRtResF9 (bpIn (halfBp 0x90 0x12))) = emits [] ∧
    bpAfter (exec .byteRtResF9 (bpIn (halfBp 0x90 0x12))) = some (halfBp 0x90 0x12) ∧
    said (exec .byteRtResFD (bpIn (halfBp 0x90 0x12))) = emits [] ∧
    bpAfter (exec .byteRtResFD (bpIn (halfBp 0x90 0x12))) = some (halfBp 0x90 0x12) := by decide
theorem test_bp_sysex_packets : bpAfter (exec .byteSxStart (bpIn (halfBp 0x90 0x12))) = some (sxBp [] true) ∧
    bpAfter (exec (.bpFeed 6) (bpIn (sxBp [1, 2, 3, 4, 5] true))) = some (sxBp [1, 2, 3, 4, 5, 6] true) ∧
    said (exec (.bpFeed 7) (bpIn (sxBp [1, 2, 3, 4, 5, 6] true))) = emits [.packet (p2 0x30160102 0x03040506)] ∧
    bpAfter (exec (.bpFeed 7) (bpIn (sxBp [1, 2, 3, 4, 5, 6] true))) = some (sxBp [7] false) ∧
    said (exec (.bpFeed 0x0D) (bpIn (sxBp [7, 8, 9, 10, 11, 12] false))) = emits [.packet (p2 0x30260708 0x090A0B0C)] := by decide
theorem test_bp_sysex_finish : said (exec .byteSxEnd (bpIn (sxBp [0x7E, 0x7F] true))) = emits [.packet (p2 0x30027E7F 0)] ∧
    said (exec .byteSxEnd (bpIn (sxBp [7] false))) = emits [.packet (p2 0x30310700 0)] ∧
    bpAfter (exec .byteSxEnd (bpIn (sxBp [7] false))) = some Bp.powerOn ∧
    said (exec .byteSxEnd (bpIn (payBp ⟨2, 0x002100, []⟩))) = emits [.payload 0x002100 [] none] ∧
    said (exec (.bpFeed 0xF7) (bpIn (payBp ⟨3, 0x410000, [0x10, 0x20]⟩))) = emits [.payload 0x410000 [0x10, 0x20] none] := by decide
theorem test_bp_sysex_payload : bpAfter (exec (.bpFeed 0x41) (bpIn (payBp ⟨0, 0, []⟩))) = some (payBp ⟨3, 0x410000, []⟩) ∧
    bpAfter (exec (.bpFeed 0) (bpIn (payBp ⟨0, 0, []⟩))) = some (payBp ⟨1, 0, []⟩) ∧
    bpAfter (exec (.bpFeed 0x21) (bpIn (payBp ⟨1, 0, []⟩))) = some (payBp ⟨2, 0x002100, []⟩) ∧
    bpAfter (exec (.bpFeed 0x09) (bpIn (payBp ⟨2, 0x002100, []⟩))) = some (payBp ⟨3, 0x002109, []⟩) ∧
    bpAfter (exec (.bpFeed 0x05) (bpIn (payBp ⟨3, 0x002109, []⟩))) = some (payBp ⟨3, 0x002109, [5]⟩) := by decide
theorem test_bp_cancel : bpAfter (exec (.bpFeed 0x80) (bpIn (sxBp [7] false))) =
      some { Bp.powerOn with st := some 0x80, rs := some 0x80, need := 2 } ∧
    said (exec (.bpFeed 0x80) (bpIn (sxBp [7] false))) = emits [] ∧
    bpAfter (exec .byteSxStart (bpIn (sxBp [1, 2] true))) = some (sxBp [] true) := by decide
theorem test_bpCfg : bpAfter (exec (.bpCfg 5 1 0) (bpIn (halfBp 0x90 0x12))) = some { halfBp 0x90 0x12 with cfgGroup := 5 } ∧
    said (exec (.bpCfg 0 1 1) (bpIn (sxBp [1] true))) = refuses .modeChangeInSysex ∧
    bpAfter (exec (.bpCfg 7 0 0) (bpIn (sxBp [1] true))) = some { sxBp [1] true with cfgGroup := 7, cfgEmit := false } := by decide
theorem test_bpReset : bpAfter (exec .bpReset (bpIn { halfBp 0x90 0x12 with cfgGroup := 6, cfgEmit := false, cfgMode := .payload })) =
    some { Bp.powerOn with cfgGroup := 6, cfgEmit := false, cfgMode := .payload } := by decide
/-- R40, and R37: the group is the one at emission. -/
theorem test_bp_emission : said (exec (.bpFeed 0x34) (bpIn { halfBp 0x90 0x12 with cfgEmit := false })) = emits [] ∧
    bpAfter (exec (.bpFeed 0x34) (bpIn { halfBp 0x90 0x12 with cfgEmit := false })) =
      some { ranBp 0x90 with cfgEmit := false } ∧
    said (exec (.bpFeed 0x34) (bpIn { halfBp 0x90 0x12 with cfgGroup := 5 })) = emits [.packet (p1 0x25901234)] := by decide
/-- R203: an append past `BP_BUF_CAP`. -/
theorem test_bp_overflow : said (exec (.bpFeed 3) { bpIn (payBp ⟨3, 0x410000, [1, 2]⟩) with params := { params with bpBufCap := some 2 } }) =
      refuses .bufOverflow ∧
    said (exec (.bpFeed 2) { bpIn (payBp ⟨3, 0x410000, [1]⟩) with params := { params with bpBufCap := some 2 } }) =
      emits [] := by decide

/-! ## SX, FR7, FR8 (V42 to V45) -/

theorem test_sxIs7_sxIs8 : said (exec (.sxIs7 0x410000 []) (at0 .sx)) = gives (.bit true) ∧
    said (exec (.sxIs8 0x410000 []) (at0 .sx)) = gives (.bit false) ∧
    said (exec (.sxIs7 0x410000 [1, 0x80]) (at0 .sx)) = gives (.bit false) ∧
    said (exec (.sxIs8 0x410000 [1, 0x80]) (at0 .sx)) = gives (.bit true) ∧
    said (exec (.sxIs7 0x410000 [1, 0x7F]) (at0 .sx)) = gives (.bit true) := by decide
theorem test_sxTotal : said (exec (.sxTotal 0x410000 [1, 2]) (at0 .sx)) = gives (.nat 3) ∧
    said (exec (.sxTotal 0x002109 [1, 2]) (at0 .sx)) = gives (.nat 5) ∧
    said (exec (.sxTotal 0 [1, 2]) (at0 .sx)) = gives (.nat 2) ∧
    said (exec (.sxTotal 0x410001 [1]) (at0 .sx)) = gives (.nat 2) := by decide
theorem test_fr7Frag : said (exec (.fr7Frag 0x410000 [1, 2, 3, 4, 5, 6] 0) (at0 .sx)) =
      gives (.packets [p2 0x30164101 0x02030405, p2 0x30310600 0]) ∧
    said (exec (.fr7Frag 0x002109 [1, 2, 3] 0) (at0 .sx)) = gives (.packets [p2 0x30060021 0x09010203]) ∧
    said (exec (.fr7Frag 0 [] 0) (at0 .sx)) = gives (.packets [p2 0x30000000 0]) ∧
    said (exec (.fr7Frag 0x410000 [0x81] 0) (at0 .sx)) = gives (.packets [p2 0x30024101 0]) := by decide
theorem test_fr8Frag : said (exec (.fr8Frag 0x410000 [1, 2, 3, 4, 5, 6, 7, 8, 9, 10, 11, 12, 13] 0 7) (at0 .sx)) =
      gives (.packets [⟨0x501E0741, 0x01020304, 0x05060708, 0x090A0B0C⟩, p1 0x5032070D]) ∧
    said (exec (.fr8Frag 0 [] 3 0xFF) (at0 .sx)) = gives (.packets [p1 0x5301FF00]) := by decide
theorem test_fr_faults : said (exec (.fr7Frag 0x410001 [1] 0) (at0 .sx)) = faults .noncanonicalId ∧
    said (exec (.fr8Frag 0x410100 [] 0 0) (at0 .sx)) = faults .noncanonicalId ∧
    said (exec (.fr7Frag 0x810000 [] 0) (at0 .sx)) = faults .noncanonicalId ∧
    said (exec (.fr8Frag 0x002180 [] 0 0) (at0 .sx)) = faults .noncanonicalId := by decide

/-! ## FC7 (V50 to V59) -/

theorem test_fc7_complete : said (exec (.fc7Feed (p2 0x30034101 0x02000000)) (at0 .fc7)) = emits [.payload 0x410000 [1, 2] none] ∧
    said (exec (.t3Complete 0 0 0) (at0 .fc7)) = emits [.payload 0 [] none] ∧
    said (exec (.t3Complete 0 2 0xC1FF00000000) (at0 .fc7)) = emits [.payload 0x410000 [0x7F] none] ∧
    said (exec (.t3Complete 0 1 0x430000000000) (fc7In contFc7)) = emits [.payload 0x430000 [] none] := by decide
theorem test_fc7_start_cont_end : fc7After (exec (.t3Start 0 6 0x410102030405) (at0 .fc7)) = some contFc7 ∧
    fc7After (exec (.t3Cont 0 2 0x060700000000) (fc7In contFc7)) = some ⟨.cont, ⟨3, 0x410000, [1, 2, 3, 4, 5, 6, 7]⟩⟩ ∧
    said (exec (.t3End 0xA 1 0x060000000000) (fc7In contFc7)) = emits [.payload 0x410000 [1, 2, 3, 4, 5, 6] none] ∧
    fc7After (exec (.t3End 0xA 1 0x060000000000) (fc7In contFc7)) = some Fc7.powerOn ∧
    fc7After (exec (.t3Start 0 2 0x002100000000) (fc7In contFc7)) = some ⟨.cont, ⟨2, 0x002100, []⟩⟩ := by decide
theorem test_fc7_ignored : fc7After (exec (.t3Cont 0 2 0x010200000000) (at0 .fc7)) = some Fc7.powerOn ∧
    said (exec (.t3End 0 1 0x410000000000) (at0 .fc7)) = emits [] ∧
    fc7After (exec (.fc7Feed (p1 0x30070000)) (fc7In contFc7)) = some contFc7 ∧
    fc7After (exec (.fc7Feed (p1 0x30404100)) (fc7In contFc7)) = some contFc7 ∧
    fc7After (exec (.fc7Feed (p2 0x50040741 0x10200000)) (fc7In contFc7)) = some contFc7 := by decide
theorem test_fc7_cap : said (exec (.fc7Feed (p2 0x30034101 0x02000000)) { at0 .fc7 with params := { params with fc7BufCap := some 2 } }) =
      emits [.payload 0x410000 [1, 2] none] ∧
    said (exec (.fc7Feed (p2 0x30044101 0x02030000)) { at0 .fc7 with params := { params with fc7BufCap := some 2 } }) =
      refuses .bufOverflow := by decide
theorem test_fc7Reset : fc7After (exec .fc7Reset (fc7In contFc7)) = some Fc7.powerOn := by decide

/-! ## FC8 (V60 to V66) -/

/-- A collector inside a message on stream 7. -/
def contFc8 (cap : Option Nat) : Fc8 := ⟨.cont, ⟨3, 0x410000, [1]⟩, 7, false, cap⟩

theorem test_fc8_complete : said (exec (.fc8Feed (p2 0x50040741 0x10200000)) (at0 .fc8)) = emits [.payload 0x410000 [0x10, 0x20] none] ∧
    said (exec (.t5Complete 0 1 7 0) (at0 .fc8)) = emits [.payload 0 [] none] ∧
    said (exec (.t5Complete 0 3 7 0xC1800000000000000000000000) (at0 .fc8)) = emits [.payload 0x410000 [0x80] none] ∧
    said (exec (.t5Complete 0 3 7 0x43020000000000000000000000) (fc8In (contFc8 none))) =
      emits [.payload 0x430000 [2] none] := by decide
theorem test_fc8_start_cont_end : fc8After (exec (.t5Start 0xA 3 7 0x41010000000000000000000000) (at0 .fc8)) = some (contFc8 none) ∧
    fc8After (exec (.t5Cont 0 3 7 0xFF800000000000000000000000) (fc8In (contFc8 none))) =
      some { contFc8 none with acc := ⟨3, 0x410000, [1, 0xFF, 0x80]⟩ } ∧
    said (exec (.t5End 0 2 7 0x03000000000000000000000000) (fc8In (contFc8 none))) =
      emits [.payload 0x410000 [1, 3] none] := by decide
theorem test_fc8_ignored : fc8After (exec (.t5Cont 0 2 7 0x41000000000000000000000000) (at0 .fc8)) = some Fc8.powerOn ∧
    fc8After (exec (.t5Start 0 3 9 0x42010000000000000000000000) (fc8In (contFc8 none))) = some (contFc8 none) ∧
    fc8After (exec (.t5End 0 2 9 0x02000000000000000000000000) (fc8In (contFc8 none))) = some (contFc8 none) ∧
    said (exec (.fc8Feed (p1 0x50000741)) (at0 .fc8)) = emits [] ∧
    said (exec (.fc8Feed (p1 0x500F0741)) (at0 .fc8)) = emits [] := by decide
theorem test_fc8_cap : said (exec (.fc8Feed (p2 0x50050741 0x01020300)) (fc8In { Fc8.powerOn with max := some 2 })) =
      emits [.payload 0x410000 [1, 2] none] ∧
    said (exec (.fc8Feed (p2 0x50050741 0x01020300))
      { fc8In { Fc8.powerOn with max := some 2 } with params := { params with fc8TruncFlag := true } }) =
      emits [.payload 0x410000 [1, 2] (some true)] ∧
    said (exec (.fc8Feed (p2 0x50030741 0x10000000)) (fc8In { Fc8.powerOn with max := some 0 })) =
      emits [.payload 0x410000 [] none] ∧
    fc8After (exec (.t5Cont 0 3 7 0x02030000000000000000000000) (fc8In (contFc8 (some 2)))) =
      some { contFc8 (some 2) with acc := ⟨3, 0x410000, [1, 2]⟩, tr := true } := by decide
theorem test_fc8Cfg_fc8Reset : fc8After (exec (.fc8Cfg (some 4)) (fc8In (contFc8 none))) = some (contFc8 (some 4)) ∧
    fc8After (exec .fc8Reset (fc8In (contFc8 (some 4)))) = some { Fc8.powerOn with max := some 4 } := by decide

/-! ## JR (examples of R292 to R296) -/

/-- The clock after `JR.SYNC 1000, 100`. -/
def synced : Jr := ⟨true, 100, 1000, 0, 0, 0⟩

theorem test_jrSync : jrAfter (exec (.jrSync 1000 100) (at0 .jr)) = some synced ∧
    jrAfter (exec (.jrSync 7500 300) (jrIn synced)) = some ⟨true, 300, 7400, 7500, 100, 120⟩ ∧
    jrAfter (exec (.jrSync 850 100) (jrIn { synced with jit := 100, sec := 120 })) = some ⟨true, 100, 850, 850, 250, 300⟩ ∧
    jrAfter (exec (.jrSync 920 100) (jrIn { synced with jit := 100, sec := 120 })) = some ⟨true, 100, 920, 920, 100, 120⟩ := by decide
theorem test_jrSched : said (exec (.jrSched 1100 110) (jrIn synced)) = gives (.time 1320) ∧
    jrAfter (exec (.jrSched 1100 110) (jrIn synced)) = some { synced with wm := 1320 } ∧
    said (exec (.jrSched 0 105) (jrIn { synced with wm := 1320, sec := 7 })) = gives (.time 1327) ∧
    said (exec (.jrSched 0 0x0005) (jrIn { synced with lts := 0xFFFE })) = gives (.time 1224) := by decide
/-- R293: before any sync a time is returned, whichever it is, and the clock is unchanged. -/
theorem test_jrSched_unsynced : ∃ x, said (exec (.jrSched 5 0) (at0 .jr)) = gives (.time x) ∧
    jrAfter (exec (.jrSched 5 0) (at0 .jr)) = some (Jr.powerOn params) := ⟨_, rfl, rfl⟩
theorem test_jrReset : jrAfter (exec .jrReset { jrIn { synced with jit := 9, sec := 60 } with params := { params with jrInitSec := 50 } }) =
    some ⟨false, 0, 0, 0, 0, 50⟩ := by decide
/-- R290: a time that does not fit 16 bits. -/
theorem test_jr_overflow : said (exec (.jrSync 65536 1) { jrIn synced with params := { params with jrTimeW := some 16 } }) =
      refuses .timeOverflow ∧
    said (exec (.jrSched 0 3000) { jrIn synced with params := { params with jrTimeW := some 16 } }) =
      refuses .timeOverflow := by decide

/-! ## Witnesses: states and operands that meet the hypotheses of each obligation, clause by clause -/

/-- A state with a half-received message, a waiting byte, and the invariant. -/
def busy : State := { bpIn (halfBp 0x90 0x12) with inbox := [⟨⟨.bp, 0⟩, .byte 0x34⟩] }

theorem busy_bpAt (n : Nat) : busy.bpAt n = if n = 0 then halfBp 0x90 0x12 else Bp.powerOn := by
  by_cases h : n = 0
  · subst h; rfl
  · rw [if_neg h]
    show bankGet Bp.powerOn [(0, halfBp 0x90 0x12)] n = _
    simp [bankGet, Ne.symm h]

theorem accumInv_clear : AccumInv ⟨0, 0, []⟩ where
  counter := by decide
  idFirst := fun _ => rfl
  idStart := fun _ => rfl
  idSevenBit := by decide

theorem bpInv_half : BpInv none (halfBp 0x90 0x12) where
  noMessage := by intro h; cases h
  message := by rintro s ⟨⟩; exact ⟨.inl (by decide), by decide, by decide, rfl⟩
  messageRunning := by rintro s ⟨⟩; rfl
  running := by rintro s ⟨⟩; decide
  slots := by decide
  fragment := ⟨by decide, (fun _ h => nomatch h), (fun h => nomatch h)⟩
  noSysex := by intro _; decide
  packetsMode := by intro _; rfl
  payloadMode := by intro h; cases h
  acc := accumInv_clear
  payload := ⟨(fun _ h => nomatch h), (fun _ h => nomatch h)⟩

theorem bpInv_powerOn : BpInv none Bp.powerOn where
  noMessage := by intro _; decide
  message := by intro s h; cases h
  messageRunning := by intro s h; cases h
  running := by intro s h; cases h
  slots := by decide
  fragment := ⟨by decide, (fun _ h => nomatch h), (fun h => nomatch h)⟩
  noSysex := by intro _; decide
  packetsMode := by intro _; rfl
  payloadMode := by intro h; cases h
  acc := accumInv_clear
  payload := ⟨(fun _ h => nomatch h), (fun _ h => nomatch h)⟩

theorem witness_StepKeepsInvariant : MachineInv busy ∧ ∃ t, step busy = .next t := by
  refine ⟨?_, _, rfl⟩
  exact {
    params := ⟨by decide, by decide, by decide⟩
    bpBank := by decide
    fc7Bank := by decide
    fc8Bank := by decide
    jrBank := by decide
    bp := fun n => by
      rw [busy_bpAt]
      split
      · exact bpInv_half
      · exact bpInv_powerOn
    fc7 := fun _ => ⟨fun _ => rfl, accumInv_clear, (fun _ h => nomatch h), (fun _ h => nomatch h)⟩
    fc8 := fun _ => ⟨fun _ => ⟨rfl, rfl⟩, accumInv_clear, (fun h => nomatch h)⟩
    jr := fun _ => ⟨fun _ => rfl, ⟨Nat.le_refl 0, show 0 * 6 / 5 ≤ 0 by decide⟩, ⟨rfl, rfl, rfl, rfl⟩⟩
    faultRecord := by decide
    refused := by decide }

theorem witness_StepRunsDecodedInstruction : busy.faultRec = none ∧ busy.inbox = [⟨⟨.bp, 0⟩, .byte 0x34⟩] ∧
    decode (.byte 0x34) = .ok (.byteData 0x34) := by decide

/-- `PresentedPacketsReachTheirUnits`: a packet with a row, and one without, are both presented in states of its hypotheses. -/
theorem witness_PresentedPackets :
    ({ at0 .pk with inbox := [⟨⟨.fc7, 0⟩, .packet .t3 (p1 0x30400000)⟩] } : State).faultRec = none ∧
    decode (.packet .t3 (p1 0x30400000)) = .error (.noRow .t3 (p1 0x30400000)) ∧
    decode (.packet .t3 (p1 0x30070000)) = .ok (.t3Complete 0 7 0) := by decide

/-- `UnrecognizedFragmentsAreIgnored`, both clauses: the lowest reserved kind, the counts next to each end of the range, the
other format's tag; none is of the excluded form. -/
theorem witness_UnrecognizedFragments :
    (∀ w ∈ [(0x30400000 : Word), 0x30070000, 0x50000000],
      ∃ s : State, s.faultRec = none ∧ s.inbox = [⟨⟨.fc7, 0⟩, .packet .t3 (p1 w)⟩] ∧
      ¬ ((p1 w).w0.toNat / 2 ^ 28 = 3 ∧ (p1 w).w0.toNat / 2 ^ 20 % 16 ≤ 3 ∧ (p1 w).w0.toNat / 2 ^ 16 % 16 ≤ 6)) ∧
    (∀ w ∈ [(0x50410000 : Word), 0x50000000, 0x500F0000, 0x30010000],
      ∃ s : State, s.faultRec = none ∧ s.inbox = [⟨⟨.fc8, 0⟩, .packet .t5 (p1 w)⟩] ∧
      ¬ ((p1 w).w0.toNat / 2 ^ 28 = 5 ∧ (p1 w).w0.toNat / 2 ^ 20 % 16 ≤ 3 ∧ 1 ≤ (p1 w).w0.toNat / 2 ^ 16 % 16 ∧
        (p1 w).w0.toNat / 2 ^ 16 % 16 ≤ 14)) :=
  ⟨fun w hw => ⟨{ at0 .fc7 with inbox := [⟨⟨.fc7, 0⟩, .packet .t3 (p1 w)⟩] }, rfl, rfl, by
      simp only [List.mem_cons, List.not_mem_nil, or_false] at hw
      rcases hw with rfl | rfl | rfl <;> decide⟩,
    fun w hw => ⟨{ at0 .fc8 with inbox := [⟨⟨.fc8, 0⟩, .packet .t5 (p1 w)⟩] }, rfl, rfl, by
      simp only [List.mem_cons, List.not_mem_nil, or_false] at hw
      rcases hw with rfl | rfl | rfl | rfl <;> decide⟩⟩

theorem witness_FaultedOrIdleStep :
    ({ busy with faultRec := some .fieldRange } : State).faultRec = some .fieldRange ∧
    (at0 .pk).faultRec = none ∧ (at0 .pk).inbox = [] := by decide

theorem witness_ReservedAndMisaddressed :
    (({ at0 .sc with inbox := [⟨⟨.sc, 1⟩, .cmd 0x18 []⟩] } : State).faultRec = none ∧
      decode (.cmd 0x18 []) = .error (.reservedCmd 0x18) ∧ decode (.cmd 0x63 []) = .error (.reservedCmd 0x63) ∧
      decode (.cmd 0xFF []) = .error (.reservedCmd 0xFF)) ∧
    (decode (.cmd 0x30 [.packet (p1 0)]) = .ok (.fc7Feed (p1 0)) ∧ some (at0 .jr).target.unit ≠ unitOfCode 0x30) := by decide

theorem witness_EncodeOfDecode : decode (.cmd 0x14 [.num 0xFFFF]) = .ok (.scDn16To7 0xFFFF) ∧
    decode (.packet .w0 ⟨0x01234567, 0, 0, 0⟩) = .ok (.tagUtility 1 0x23 0x4567) ∧ decode (.byte 0xFF) = .ok .byteRtFF := by decide

theorem witness_OneOutcomePerCommand : (∃ t, exec (.pkSize (p1 0)) (at0 .pk) = .next t) ∧
    (∃ t, exec (.pkGroup (p1 0)) (at0 .pk) = .next t) ∧ ∃ t, exec .bpReset (at0 .pk) = .next t :=
  ⟨⟨_, rfl⟩, ⟨_, rfl⟩, ⟨_, rfl⟩⟩

/-- Another instance of the same unit, and the other units. -/
theorem witness_InstancesAreIndependent : (∃ t, exec (.bpFeed 0x90) (at0 .bp) = .next t) ∧ (at0 .bp).target ≠ ⟨.bp, 1⟩ ∧
    (at0 .bp).target ≠ ⟨.fc7, 0⟩ ∧ (at0 .bp).target ≠ ⟨.fc8, 0⟩ ∧ (at0 .bp).target ≠ ⟨.jr, 0⟩ :=
  ⟨⟨_, rfl⟩, by decide, by decide, by decide, by decide⟩

theorem witness_FaultsAreTheCatalogue : (at0 .pk).target.unit = unitOf (.pkGroup (p1 0x0FFFFFFF)) ∧
    faultOf (.pkGroup (p1 0x0FFFFFFF)) = some .grouplessUtility ∧ faultOf (.pkGroup (p1 0x10000000)) = none := by decide

theorem witness_WellFormedNeverFaults : (Instr.pkMake 4 0 0 0 0).wellFormed = true ∧
    ∃ t, exec (.pkMake 4 0 0 0 0) (at0 .pk) = .next t := ⟨by decide, _, rfl⟩

theorem witness_DefaultsNeverOverflow : (at0 .fc7).params.bpBufCap = none ∧ (at0 .fc7).params.fc7BufCap = none ∧
    (at0 .fc7).params.jrTimeW = none := by decide

/-- `PK`: the unit, and each clause at the edges of its range. -/
theorem witness_PkMakeBuildsFromWords : (at0 .pk).target.unit = .pk ∧ (1 ≤ (1 : BitVec 3).toNat ∧ (1 : BitVec 3).toNat ≤ 4) ∧
    (1 ≤ (4 : BitVec 3).toNat ∧ (4 : BitVec 3).toNat ≤ 4) ∧ (0 : BitVec 3).toNat < 1 ∧ 4 < (5 : BitVec 3).toNat := by decide
theorem witness_PkReadsWordZero : (at0 .pk).target.unit = .pk ∧ (p1 0x0FFFFFFF).w0.toNat / 2 ^ 28 = 0 ∧
    (p1 0x10000000).w0.toNat / 2 ^ 28 ≠ 0 := by decide
theorem witness_PkCompositeReads : (at0 .pk).target.unit = .pk ∧ (14 : BitVec 4).toNat ≤ 14 ∧ 14 < (15 : BitVec 4).toNat ∧
    (12 : BitVec 4).toNat ≤ 12 ∧ 12 < (13 : BitVec 4).toNat := by decide
theorem witness_PkFamilyMembership : (at0 .pk).target.unit = .pk ∧
    (0xF : BitVec 4).toNat ∈ [0x0, 0x1, 0x2, 0x3, 0x4, 0x5, 0xD, 0xF] ∧
    (0x6 : BitVec 4).toNat ∉ [0x0, 0x1, 0x2, 0x3, 0x4, 0x5, 0xD, 0xF] := by decide
/-- `PkByteReads`, `PkByteWrites`, `PkNibbles` and `TagRowsAnswerWordCount` ask for the unit only, and for positions in the
packet. -/
theorem witness_Pk_positions : (at0 .pk).target.unit = .pk ∧ 0 < 16 ∧ 15 < 16 ∧ 31 < 32 := by decide
/-- `ScalersUp`, `ScalersDown` and `ScalerLaws`. -/
theorem witness_Scalers : (at0 .sc).target.unit = .sc ∧ (0x7E : BitVec 7) < 0x7F ∧ (0x3FFE : BitVec 14) < 0x3FFF := by decide
theorem witness_ScalerLaws_order : (∃ w, Answers (.scUp7To16 0x7E) (at0 .sc) (.bits16 w)) ∧
    (∃ w, Answers (.scUp7To32 0x7F) (at0 .sc) (.bits32 w)) ∧ (∃ w, Answers (.scUp14To16 0x3FFE) (at0 .sc) (.bits16 w)) ∧
    ∃ w, Answers (.scUp14To32 0x3FFF) (at0 .sc) (.bits32 w) := ⟨⟨_, rfl⟩, ⟨_, rfl⟩, ⟨_, rfl⟩, ⟨_, rfl⟩⟩
theorem witness_PacketLayouts : ([1, 2, 3, 4, 5, 6] : Bytes).length ≤ 6 ∧ (List.replicate 13 (0 : Byte)).length ≤ 13 ∧ 15 < 16 := by
  decide

/-- `BP`: `byteOf` for the command and for a byte row, and each situation of the parser. -/
theorem witness_Bp_bytes : byteOf (.bpFeed 0xF7) = some 0xF7 ∧ byteOf .byteSxEnd = some 0xF7 ∧
    byteOf (.byteData 0x7F) = some 0x7F ∧ byteOf (.byteCvE0 0xF) = some 0xEF ∧ byteOf .byteRtF8 = some 0xF8 ∧
    byteOf .byteRtFF = some 0xFF := by decide
theorem witness_BpRealTimeByte : byteOf .byteRtF8 = some 0xF8 ∧ (bpIn (sxBp [1] true)).target.unit = .bp ∧
    0xF8 ≤ (0xF8 : Byte).toNat ∧ byteOf .byteRtResFD = some 0xFD := by decide
theorem witness_BpChannelVoiceStatus : byteOf (.byteCv80 0) = some 0x80 ∧ (bpIn (halfBp 0x90 0x12)).target.unit = .bp ∧
    ((bpIn (halfBp 0x90 0x12)).bpAt 0).sx = false ∧ 0x80 ≤ (0x80 : Byte).toNat ∧ (0xEF : Byte).toNat ≤ 0xEF := by decide
/-- The six situations of a data byte, in the order of the statement's clauses. -/
theorem witness_BpDataByte : byteOf (.byteData 0x7F) = some 0x7F ∧ (at0 .bp).target.unit = .bp ∧ (0x7F : Byte).toNat < 0x80 ∧
    (((at0 .bp).bpAt 0).st = none ∧ ((at0 .bp).bpAt 0).rs = none ∧ ((at0 .bp).bpAt 0).sx = false) ∧
    (let u := (bpIn { Bp.powerOn with st := some 0xF2, need := 2 }).bpAt 0
     u.sx = false ∧ u.st = some 0xF2 ∧ dataCount 0xF2 = 2 ∧ u.need = 2 ∧ u.cur = 0) ∧
    (let u := (bpIn (halfBp 0xEF 0x12)).bpAt 0
     u.sx = false ∧ u.st = some 0xEF ∧ dataCount 0xEF = 2 ∧ u.need = 1 ∧ u.cur = 1) ∧
    (let u := (bpIn { Bp.powerOn with st := some 0xF3, need := 1 }).bpAt 0
     u.sx = false ∧ u.st = some 0xF3 ∧ dataCount 0xF3 = 1 ∧ u.need = 1 ∧ u.cur = 0) ∧
    (let u := (bpIn (ranBp 0x80)).bpAt 0
     u.sx = false ∧ u.st = none ∧ u.rs = some 0x80 ∧ dataCount 0x80 = 2) ∧
    (let u := (bpIn (ranBp 0xDF)).bpAt 0
     u.sx = false ∧ u.st = none ∧ u.rs = some 0xDF ∧ dataCount 0xDF = 1) := by decide
theorem witness_BpSystemStatus : byteOf .byteScF1 = some 0xF1 ∧ byteOf .byteScF2 = some 0xF2 ∧ byteOf .byteScF3 = some 0xF3 ∧
    byteOf .byteTune = some 0xF6 ∧ byteOf .byteUndefF4 = some 0xF4 ∧ byteOf .byteUndefF5 = some 0xF5 ∧
    byteOf .byteSxEnd = some 0xF7 ∧ byteOf .byteSxStart = some 0xF0 ∧ (bpIn (ranBp 0x90)).target.unit = .bp ∧
    ((bpIn (ranBp 0x90)).bpAt 0).sx = false := by decide
theorem witness_BpAppendPackets : byteOf (.byteData 0) = some 0 ∧ (bpIn (sxBp [1, 2, 3, 4, 5, 6] true)).target.unit = .bp ∧
    (0 : Byte).toNat < 0x80 ∧
    (let u := (bpIn (sxBp [1, 2, 3, 4, 5, 6] true)).bpAt 0
     u.sx = true ∧ u.cfgMode = .packets ∧ u.fb.length = 6) ∧
    (let u := (bpIn (sxBp [1, 2, 3, 4, 5] true)).bpAt 0
     u.sx = true ∧ u.cfgMode = .packets ∧ u.fb.length ≠ 6) := by decide
theorem witness_BpAppendPayload : byteOf (.byteData 0) = some 0 ∧ (bpIn (payBp ⟨3, 0x410000, [1, 2]⟩)).target.unit = .bp ∧
    (let u := (bpIn (payBp ⟨0, 0, []⟩)).bpAt 0
     u.sx = true ∧ u.cfgMode = .payload ∧ u.acc.mc = 0) ∧
    ((bpIn (payBp ⟨1, 0, []⟩)).bpAt 0).acc.mc = 1 ∧ ((bpIn (payBp ⟨2, 0x2100, []⟩)).bpAt 0).acc.mc = 2 ∧
    (let s := { bpIn (payBp ⟨3, 0x410000, [1, 2]⟩) with params := { params with bpBufCap := some 2 } }
     (s.bpAt 0).acc.mc = 3 ∧ s.params.bpBufCap = some 2 ∧ 2 ≤ (s.bpAt 0).acc.buf.length) := by decide
/-- The clause below the capacity: one byte of room, and no capacity. -/
theorem witness_BpAppendPayload_room :
    let s := { bpIn (payBp ⟨3, 0x410000, [1]⟩) with params := { params with bpBufCap := some 2 } }
    (s.bpAt 0).acc.mc = 3 ∧ ∀ c, s.params.bpBufCap = some c → (s.bpAt 0).acc.buf.length < c :=
  ⟨by decide, by intro c h; cases h; decide⟩
theorem witness_BpSysexFinish : byteOf .byteSxEnd = some 0xF7 ∧ (bpIn (sxBp [7] false)).target.unit = .bp ∧
    ((bpIn (sxBp [7] false)).bpAt 0).sx = true ∧ ((bpIn (payBp ⟨2, 0x2100, []⟩)).bpAt 0).sx = true := by decide
theorem witness_BpSysexCancel : byteOf (.byteCv80 0) = some 0x80 ∧ byteOf .byteTune = some 0xF6 ∧
    (bpIn (sxBp [7] false)).target.unit = .bp ∧ 0x80 ≤ (0x80 : Byte).toNat ∧ (0xF6 : Byte).toNat < 0xF8 ∧
    (0xF6 : Byte) ≠ 0xF7 ∧ ((bpIn (sxBp [7] false)).bpAt 0).sx = true := by decide
theorem witness_BpSuppressionKeepsParsing : byteOf (.bpFeed 0x34) = some 0x34 ∧
    (bpIn { halfBp 0x90 0x12 with cfgEmit := false }).target.unit = .bp ∧
    ((bpIn { halfBp 0x90 0x12 with cfgEmit := false }).bpAt 0).cfgEmit = false := by decide
theorem witness_ConfigurationCommands : (at0 .bp).target.unit = .bp ∧ (at0 .fc8).target.unit = .fc8 ∧
    (((bpIn (sxBp [1] true)).bpAt 0).sx = true ∧ SysexMode.payload ≠ ((bpIn (sxBp [1] true)).bpAt 0).cfgMode) ∧
    SysexMode.packets = ((bpIn (sxBp [1] true)).bpAt 0).cfgMode ∧ ((at0 .bp).bpAt 0).sx = false := by decide
theorem witness_ResetCommands : (at0 .bp).target.unit = .bp ∧ (at0 .fc7).target.unit = .fc7 ∧
    (at0 .fc8).target.unit = .fc8 ∧ (at0 .jr).target.unit = .jr := by decide
theorem witness_RunningStatusEquivalence : (bpIn (halfBp 0x80 1)).target.unit = .bp ∧ ((bpIn (halfBp 0x80 1)).bpAt 0).sx = false ∧
    0x80 ≤ (0x80 : Byte).toNat ∧ (0xEF : Byte).toNat ≤ 0xEF ∧ (0x7F : Byte).toNat < 0x80 ∧ dataCount 0xEF = 2 ∧
    dataCount 0xC0 = 1 ∧ dataCount 0xDF = 1 := by decide
theorem witness_RealTimeTransparency : (bpIn (sxBp [1] true)).target.unit = .bp ∧ 0xF8 ≤ (0xF8 : Byte).toNat := by decide

/-- `FC7`: not recognized, dropped, and accepted with and without room. -/
theorem witness_Fc7Feed : fragment7Of (.fc7Feed (p1 0x30070000)) = some (p1 0x30070000) ∧
    fragment7Of (.t3Start 0 6 0x410102030405) = some (p2 0x30164101 0x02030405) ∧ (fc7In contFc7).target.unit = .fc7 ∧
    ((at0 .fc7).fc7At 0).ph = .idle ∧ ((fc7In contFc7).fc7At 0).ph = .cont ∧
    fragment7Of (.t3End 0 1 0x060000000000) = some (p2 0x30310600 0) ∧
    route7All none [0x41, 1, 2] ⟨0, 0, []⟩ = .ok ⟨3, 0x410000, [1, 2]⟩ ∧
    route7All (some 1) [0x41, 1, 2] ⟨0, 0, []⟩ = .refuse .bufOverflow := by decide
theorem witness_Fc8Feed : fragment8Of (.fc8Feed (p1 0x50000741)) = some (p1 0x50000741) ∧
    fragment8Of (.t5Cont 0 2 9 0x55000000000000000000000000) = some (p1 0x50220955) ∧ (fc8In (contFc8 none)).target.unit = .fc8 ∧
    ((at0 .fc8).fc8At 0).ph = .idle ∧ ((fc8In (contFc8 none)).fc8At 0).ph = .cont ∧ (9 : Byte) ≠ (contFc8 none).act ∧
    (7 : Byte) = (contFc8 none).act := by decide
theorem witness_SysexQueries : (at0 .sx).target.unit = .sx := rfl
theorem witness_FragmentersSplitThePayload : (at0 .sx).target.unit = .sx ∧
    (¬ (2 ^ 16 ≤ (0x410000 : BitVec 24).toNat ∧ (0x410000 : BitVec 24).toNat % 2 ^ 16 ≠ 0) ∧
      ∀ b ∈ idBytes 0x410000, b.toNat < 0x80) ∧
    (2 ^ 16 ≤ (0x410001 : BitVec 24).toNat ∧ (0x410001 : BitVec 24).toNat % 2 ^ 16 ≠ 0) ∧
    ¬ ∀ b ∈ idBytes 0x002180, b.toNat < 0x80 := by decide

/-- An idle collector with a capacity of two bytes. -/
def fc7Cap2 : State := { at0 .fc7 with params := { params with fc7BufCap := some 2 } }

/-- The largest payload the capacity takes, and the extended id. -/
theorem witness_Fc7RoundTrip : (0x002109 : BitVec 24) ≠ 0 ∧ canonicalId 0x002109 = true ∧ SevenBit [0, 0x7F] ∧
    fc7Cap2.target.unit = .fc7 ∧ (fc7Cap2.fc7At 0).ph = .idle ∧ WithinCap fc7Cap2.params.fc7BufCap ([0, 0x7F] : Bytes).length :=
  ⟨by decide, by decide, by show ∀ b ∈ _, _; decide, rfl, rfl, by intro c h; cases h; decide⟩
theorem witness_Fc8RoundTrip : (0x410000 : BitVec 24) ≠ 0 ∧ canonicalId 0x410000 = true ∧ (at0 .fc8).target.unit = .fc8 ∧
    ((at0 .fc8).fc8At 0).ph = .idle ∧ WithinCap ((at0 .fc8).fc8At 0).max ([0x80] : Bytes).length :=
  ⟨by decide, by decide, rfl, rfl, by intro c h; cases h⟩
/-- A message of two packets on stream 7 (V44) with a foreign START of stream 9 between them. -/
theorem witness_ForeignStreamsAreIgnored : (at0 .fc8).target.unit = .fc8 ∧ ((at0 .fc8).fc8At 0).ph = .idle ∧
    (∀ s0 : State, s0.target.unit = .sx →
      Answers (.fr8Frag 0x410000 [1, 2, 3, 4, 5, 6, 7, 8, 9, 10, 11, 12, 13] 0 7) s0
        (.packets (⟨0x501E0741, 0x01020304, 0x05060708, 0x090A0B0C⟩ :: ([] ++ [p1 0x5032070D])))) ∧
    ([p2 0x50130942 0x01000000].filter fun p => getByte p 2 == (7 : Byte)) = [] :=
  ⟨rfl, rfl, fun _ h => answers_of (u := .sx) (by rfl) h, by decide⟩

/-- `JR`: unbounded times, and a 16-bit width with the largest time that fits and the smallest that does not. -/
theorem witness_JrFirstSync : (at0 .jr).target.unit = .jr ∧ ((at0 .jr).jrAt 0).init = false ∧
    Fits { params with jrTimeW := some 16 } 65535 ∧ ¬ Fits { params with jrTimeW := some 16 } 65536 :=
  ⟨rfl, rfl, by intro w h; cases h; decide, fun h => absurd (h 16 rfl) (by decide)⟩
theorem witness_JrLaterSync : (jrIn synced).target.unit = .jr ∧ ((jrIn synced).jrAt 0).init = true ∧
    (850 < synced.ref + params.jrTick * deltaNat 100 synced.lts ∧ ¬ 7500 < synced.ref + params.jrTick * deltaNat 300 synced.lts) ∧
    (Fits params 7500 ∧ Fits params 7400 ∧ Fits params 100 ∧ Fits params 120) :=
  ⟨rfl, rfl, by decide, (fun _ h => nomatch h), (fun _ h => nomatch h), (fun _ h => nomatch h), (fun _ h => nomatch h)⟩
theorem witness_JrLaterSync_overflow : ¬ Fits { params with jrTimeW := some 16 } (synced.ref + params.jrTick * deltaNat 3000 synced.lts) :=
  fun h => absurd (h 16 rfl) (by decide)
theorem witness_JrSchedule : (jrIn synced).target.unit = .jr ∧ ((jrIn synced).jrAt 0).init = true ∧
    ((at0 .jr).jrAt 0).init = false ∧ Fits params (synced.ref + params.jrTick * deltaNat 110 synced.lts) ∧
    ¬ Fits { params with jrTimeW := some 16 } (synced.ref + params.jrTick * deltaNat 3000 synced.lts) :=
  ⟨rfl, rfl, rfl, (fun _ h => nomatch h), fun h => absurd (h 16 rfl) (by decide)⟩
/-- V74's kind of sequence: an out-of-order timestamp after a later one. -/
theorem witness_ScheduleIsNonDecreasing : (jrIn synced).target.unit = .jr ∧ ((jrIn synced).jrAt 0).init = true ∧
    (∀ i ∈ [Instr.jrSched 1100 110, .jrSync 1400 112, .jrSched 1500 105],
      (∃ a ts, i = .jrSync a ts) ∨ ∃ a ts, i = .jrSched a ts) ∧
    ∃ t, runAll [.jrSched 1100 110, .jrSync 1400 112, .jrSched 1500 105] (jrIn synced) = .next t := by
  refine ⟨rfl, rfl, ?_, _, rfl⟩
  intro i hi
  simp only [List.mem_cons, List.not_mem_nil, or_false] at hi
  obtain rfl | rfl | rfl := hi
  · exact .inr ⟨_, _, rfl⟩
  · exact .inl ⟨_, _, rfl⟩
  · exact .inr ⟨_, _, rfl⟩
theorem witness_RegularClockHasNoJitter : (at0 .jr).target.unit = .jr ∧ (at0 .jr).params.jrTimeW = none ∧
    (at0 .jr).jrAt 0 = ⟨false, 0, 0, 0, 0, (at0 .jr).params.jrInitSec⟩ := by decide
theorem witness_WatermarkAndOffsetOnlyGrow : Instr.jrSched 0 110 ≠ .jrReset ∧
    ∃ t, exec (.jrSched 0 110) (jrIn synced) = .next t := ⟨by decide, _, rfl⟩

end Sys2Proof.Tests
end

section
/-! The step of the machine: what it does with a transaction that decodes (30_encoding.md R93). -/

namespace Sys2Proof.Machine

/-- `step` adds nothing around `exec`: what was fetched to run is run at the state it was fetched with. -/
theorem step_of_fetch_run {s s' : State} {i : Instr} (h : fetch s = .run i s') : step s = exec i s' := by
  rw [step, h]

/-- Settles O4: `fetch` answers the decoded instruction with the transaction taken, and `step` runs what was fetched. -/
theorem stepRunsDecodedInstruction : Obligations.StepRunsDecodedInstruction := by
  intro s f rest i hquiet hinbox hdecode
  have hfetch : fetch s = .run i (s.take f rest) := fetch_run hquiet hinbox hdecode
  exact step_of_fetch_run hfetch

end Sys2Proof.Machine
end

section
/-! Routing bytes keeps the invariant of an accumulator (43_fragment_collectors.md R240, R252, R253). -/

namespace Sys2Proof.Machine

theorem AccumInv.clear : AccumInv Accum.clear where
  counter := by decide
  idFirst _ := rfl
  idStart _ := rfl
  idSevenBit := by decide

theorem SevenBit.nil : SevenBit [] := fun _ hb => nomatch hb

theorem SevenBit.append {l : Bytes} {b : Byte} (hl : SevenBit l) (hb : b.toNat < 0x80) : SevenBit (l ++ [b]) := by
  intro x hx
  rcases List.mem_append.mp hx with hx | hx
  · exact hl x hx
  · rw [List.mem_singleton.mp hx]; exact hb

theorem WithinCap.zero (cap : Option Nat) : WithinCap cap 0 := fun _ _ => Nat.zero_le _

theorem WithinCap.succ {cap : Option Nat} {n : Nat} (h : overCap cap n = false) : WithinCap cap (n + 1) := by
  rintro c rfl
  have hlt : ¬ c ≤ n := of_decide_eq_false h
  omega

/-- A 7-bit value put at any of the three bytes of an id leaves bit 7 of each byte clear. -/
theorem idBits_sevenBit : ∀ z : BitVec 7, (z.setWidth 24 <<< 16) &&& 0x808080#24 = 0 ∧
    (z.setWidth 24 <<< 8) &&& 0x808080#24 = 0 ∧ z.setWidth 24 &&& 0x808080#24 = 0 := by decide

/-- An id byte takes the id one step further: it starts at 0 and ends at 3. -/
theorem AccumInv.idByte {a : Accum} (h : AccumInv a) (hmc : a.mc < 3) (z : BitVec 7) : AccumInv (a.idByte z) := by
  have hbuf : a.buf = [] := h.idFirst hmc
  obtain ⟨hfirst, hsecond, hthird⟩ := idBits_sevenBit z
  unfold Accum.idByte
  split
  · by_cases hz : z = 0
    · subst hz
      exact ⟨by simp, fun _ => hbuf, fun _ => rfl, hfirst⟩
    · simp only [hz, if_false]
      exact ⟨Nat.le_refl 3, fun _ => hbuf, fun hm => by simp at hm, hfirst⟩
  · split
    · exact ⟨by simp, fun _ => hbuf, fun hm => by simp at hm, by
        rw [BitVec.and_or_distrib_right, h.idSevenBit, hsecond]; rfl⟩
    · exact ⟨Nat.le_refl 3, fun _ => hbuf, fun hm => by simp at hm, by
        rw [BitVec.and_or_distrib_right, h.idSevenBit, hthird]; rfl⟩

/-- After the id the payload may be any list. -/
theorem AccumInv.setBuf {a : Accum} (h : AccumInv a) (hmc : ¬ a.mc < 3) (l : Bytes) : AccumInv { a with buf := l } :=
  { h with idFirst := fun hm => absurd hm hmc }

@[simp] theorem Accum.idByte_buf (a : Accum) (z : BitVec 7) : (a.idByte z).buf = a.buf := by
  unfold Accum.idByte
  split
  · rfl
  · split <;> rfl

/-- What BP in payload mode and FC7 ask of their accumulator (10_state.md R36, R42, R44). -/
def Accum7Inv (cap : Option Nat) (a : Accum) : Prop :=
  AccumInv a ∧ SevenBit a.buf ∧ WithinCap cap a.buf.length

theorem Accum7Inv.clear (cap : Option Nat) : Accum7Inv cap Accum.clear :=
  ⟨.clear, .nil, .zero cap⟩

theorem Accum7Inv.route7 {cap : Option Nat} {b : BitVec 7} {a a' : Accum} (h : Accum7Inv cap a)
    (hr : route7 cap b a = .ok a') : Accum7Inv cap a' := by
  obtain ⟨hacc, hseven, hcap⟩ := h
  rcases route7_cases cap b a with ⟨hmc, hid⟩ | ⟨hmc, hroom, happ⟩ | ⟨_, _, hfull⟩
  · obtain rfl : a.idByte b = a' := by rw [hid] at hr; injection hr
    exact ⟨hacc.idByte hmc b, by rwa [Accum.idByte_buf], by rwa [Accum.idByte_buf]⟩
  · obtain rfl : { a with buf := a.buf ++ [b.setWidth 8] } = a' := by rw [happ] at hr; injection hr
    have hb : (b.setWidth 8).toNat < 0x80 := by
      rw [BitVec.toNat_setWidth_of_le (by decide)]; exact b.isLt
    exact ⟨hacc.setBuf hmc _, hseven.append hb, by
      rw [List.length_append]; exact WithinCap.succ hroom⟩
  · rw [hfull] at hr; cases hr

theorem Accum7Inv.route7All {cap : Option Nat} {l : Bytes} {a a' : Accum} (h : Accum7Inv cap a)
    (hr : route7All cap l a = .ok a') : Accum7Inv cap a' := by
  induction l generalizing a with
  | nil => cases hr; exact h
  | cons b rest ih =>
    simp only [Machine.route7All] at hr
    split at hr
    · next hb => exact ih (h.route7 hb) hr
    · cases hr
    · cases hr

/-- What FC8 asks of its accumulator and truncation mark (R45): bytes are dropped only after the id. -/
def Accum8Inv (x : Accum × Bool) : Prop := AccumInv x.1 ∧ (x.2 = true → x.1.mc = 3)

theorem Accum8Inv.clear : Accum8Inv (Accum.clear, false) := ⟨.clear, fun h => nomatch h⟩

theorem Accum8Inv.route8 {x : Accum × Bool} (h : Accum8Inv x) (max : Option Nat) (b : Byte) :
    Accum8Inv (route8 max b x) := by
  obtain ⟨hacc, htr⟩ := h
  unfold Machine.route8
  split
  · next hmc => exact ⟨hacc.idByte hmc _, fun ht => absurd (htr ht) (Nat.ne_of_lt hmc)⟩
  · next hmc =>
    split
    · exact ⟨hacc, fun _ => Nat.le_antisymm hacc.counter (Nat.not_lt.mp hmc)⟩
    · exact ⟨hacc.setBuf hmc _, htr⟩

theorem Accum8Inv.route8All {x : Accum × Bool} (h : Accum8Inv x) (max : Option Nat) (l : Bytes) :
    Accum8Inv (route8All max l x) := by
  induction l generalizing x with
  | nil => exact h
  | cons b rest ih => exact ih (h.route8 max b)

end Sys2Proof.Machine
end

section
/-! Feeding a collector keeps its invariant (10_state.md R44, R45). -/

namespace Sys2Proof.Machine

theorem Fc7Inv.accum7 {cap : Option Nat} {u : Fc7} (h : Fc7Inv cap u) : Accum7Inv cap u.acc := ⟨h.acc, h.payload⟩

theorem Fc7Inv.powerOn (cap : Option Nat) : Fc7Inv cap Fc7.powerOn where
  idle _ := rfl
  acc := .clear
  payload := ⟨.nil, .zero cap⟩

theorem Fc7Inv.cont {cap : Option Nat} {a : Accum} (h : Accum7Inv cap a) : Fc7Inv cap ⟨.cont, a⟩ where
  idle hp := nomatch hp
  acc := h.1
  payload := h.2

theorem Fc7Inv.collect {cap : Option Nat} {k : FragKind} {l : Bytes} {u u' : Fc7} {ev : List Event}
    (h : Accum7Inv cap u.acc) (hc : Fc7.collect cap k l u = .ok (u', ev)) : Fc7Inv cap u' := by
  unfold Fc7.collect at hc
  split at hc
  · next hr =>
    split at hc
    · cases hc; exact .powerOn cap
    · cases hc; exact .cont (h.route7All hr)
  · cases hc
  · cases hc

/-- `FC7.FEED`: a packet that is ignored changes nothing, a COMPLETE or START routes into an empty accumulator, a CONT
or END into the one held. -/
theorem Fc7Inv.feed {cap : Option Nat} {p : Packet} {u u' : Fc7} {ev : List Event} (h : Fc7Inv cap u)
    (hf : Fc7.feed cap p u = .ok (u', ev)) : Fc7Inv cap u' := by
  unfold Fc7.feed at hf
  split at hf
  · split at hf
    · cases hf; exact h
    · simp only at hf
      split at hf
      · exact .collect (.clear cap) hf
      · split at hf
        · cases hf; exact h
        · exact .collect h.accum7 hf
  · cases hf; exact h

theorem Fc8Inv.accum8 {u : Fc8} (h : Fc8Inv u) : Accum8Inv (u.acc, u.tr) := ⟨h.acc, h.truncated⟩

theorem Fc8Inv.setMax {u : Fc8} (h : Fc8Inv u) (m : Option Nat) : Fc8Inv { u with max := m } := { h with }

theorem Fc8Inv.powerOn : Fc8Inv Fc8.powerOn where
  idle _ := ⟨rfl, rfl⟩
  acc := .clear
  truncated h := nomatch h

theorem Fc8Inv.cleared (u : Fc8) : Fc8Inv u.cleared := Fc8Inv.powerOn.setMax u.max

theorem Fc8Inv.collect {flag : Bool} {k : FragKind} {l : Bytes} {u : Fc8} (h : Accum8Inv (u.acc, u.tr)) :
    Fc8Inv (Fc8.collect flag k l u).1 := by
  unfold Fc8.collect
  simp only
  split
  · exact ⟨fun _ => ⟨rfl, rfl⟩, .clear, fun h => nomatch h⟩
  · obtain ⟨hacc, htr⟩ := h.route8All u.max l
    exact ⟨(fun hp => nomatch hp), hacc, htr⟩

/-- `FC8.FEED`: a packet that is ignored changes nothing, a COMPLETE or START routes into an empty accumulator, a CONT
or END of the active stream into the one held. -/
theorem Fc8Inv.feed {u : Fc8} (h : Fc8Inv u) (flag : Bool) (p : Packet) : Fc8Inv (Fc8.feed flag p u).1 := by
  unfold Fc8.feed
  split
  · split
    · exact h
    · simp only
      split
      · split
        · exact h
        · exact .collect .clear
      · split
        · exact h
        · split
          · exact h
          · exact .collect h.accum8
  · exact h

end Sys2Proof.Machine
end

section
/-! Each command of a clock follower keeps its invariant (10_state.md R47; 44_jitter_clock_follower.md R290, R292,
R293, R296). -/

namespace Sys2Proof.Machine

theorem fitsTime_zero (c : Params) : fitsTime c 0 = true := by
  unfold fitsTime
  split
  · exact decide_eq_true (Nat.two_pow_pos _)
  · rfl

theorem JrInv.powerOn {c : Params} (hc : ParamsOk c) : JrInv c (Jr.powerOn c) where
  unsynced _ := rfl
  offset := ⟨Nat.le_refl _, by simp [Jr.powerOn]⟩
  fits := ⟨fitsTime_zero c, fitsTime_zero c, fitsTime_zero c, hc.floorFits⟩

/-- The tracked jitter never drops (R295). -/
theorem le_jitterAfter (jit : Nat) (s : Int) : jit ≤ jitterAfter jit s := by
  unfold jitterAfter
  split
  · exact Nat.le_add_right _ _
  · split
    · omega
    · exact Nat.le_refl _

@[simp] theorem Jr.jitterUpdate_init (c : Params) (s : Int) (u : Jr) : (u.jitterUpdate c s).init = u.init := by
  unfold Jr.jitterUpdate; simp only; split <;> rfl

@[simp] theorem Jr.jitterUpdate_ref (c : Params) (s : Int) (u : Jr) : (u.jitterUpdate c s).ref = u.ref := by
  unfold Jr.jitterUpdate; simp only; split <;> rfl

/-- `JUPDATE` keeps the security offset at or above its floor and the jitter's margin: when the jitter grows the offset
is raised to the new margin, and otherwise neither changes. -/
theorem Jr.jitterUpdate_offset {c : Params} {u : Jr} (s : Int)
    (h : c.jrInitSec ≤ u.sec ∧ u.jit * c.jrMarginNum / c.jrMarginDen ≤ u.sec) :
    c.jrInitSec ≤ (u.jitterUpdate c s).sec ∧
      (u.jitterUpdate c s).jit * c.jrMarginNum / c.jrMarginDen ≤ (u.jitterUpdate c s).sec := by
  unfold Jr.jitterUpdate
  simp only
  split
  · exact ⟨Nat.le_trans h.1 (Nat.le_max_left _ _), Nat.le_max_right _ _⟩
  · next hgrow =>
    have hsame : jitterAfter u.jit s = u.jit := Nat.le_antisymm (Nat.not_lt.mp hgrow) (le_jitterAfter _ _)
    rw [hsame]
    exact h

theorem Jr.follow_init (c : Params) (t : Nat) (ts : BitVec 16) (u : Jr) : (Jr.follow c t ts u).init = u.init := by
  simp [Jr.follow]

/-- The new reference is the arrival time or the expected time. -/
theorem Jr.follow_ref (c : Params) (t : Nat) (ts : BitVec 16) (u : Jr) :
    (Jr.follow c t ts u).ref = t ∨ (Jr.follow c t ts u).ref = Jr.timeOf c ts u := by
  simp only [Jr.follow, Jr.jitterUpdate_ref]
  split
  · exact .inl rfl
  · exact .inr rfl

theorem JrInv.firstSync {c : Params} {u : Jr} (h : JrInv c u) {t : Nat} (ts : BitVec 16) (ht : fitsTime c t = true) :
    JrInv c { u with init := true, ref := t, lts := ts } where
  unsynced hi := nomatch hi
  offset := h.offset
  fits := ⟨ht, h.fits.2⟩

/-- `JR.SYNC`: every value it writes has been looked at, the reference through the arrival and the expected time. -/
theorem JrInv.sync {c : Params} {u u' : Jr} {t : Nat} {ts : BitVec 16} {ev : List Event} (h : JrInv c u)
    (hs : Jr.sync c t ts u = .ok (u', ev)) : JrInv c u' := by
  unfold Jr.sync at hs
  split at hs
  · cases hs
  next ht =>
  have ht : fitsTime c t = true := by simpa using ht
  split at hs
  · cases hs; exact h.firstSync ts ht
  next hinit =>
  simp only at hs
  split at hs
  next hfit =>
    cases hs
    simp only [Bool.and_eq_true] at hfit
    obtain ⟨⟨⟨hexpected, hwm⟩, hjit⟩, hsec⟩ := hfit
    have href : fitsTime c (Jr.follow c t ts u).ref = true := by
      rcases Jr.follow_ref c t ts u with hr | hr <;> rw [hr] <;> assumption
    exact {
      unsynced := fun hi => absurd (Jr.follow_init c t ts u ▸ hi) (by simpa using hinit)
      offset := Jr.jitterUpdate_offset _ h.offset
      fits := ⟨href, hwm, hjit, hsec⟩ }
  · cases hs

/-- `JR.SCHED` after a sync: the watermark is the old one or the candidate. -/
theorem JrInv.schedule {c : Params} {u : Jr} {ts : BitVec 16} (h : JrInv c u) (hi : u.init = true)
    (hc : fitsTime c (Jr.timeOf c ts u) = true) : JrInv c (Jr.schedule c ts u) where
  unsynced hi' := absurd (hi.symm.trans hi') (by decide)
  offset := h.offset
  fits := by
    obtain ⟨href, hwm, hrest⟩ := h.fits
    refine ⟨href, ?_, hrest⟩
    show fitsTime c (max u.wm (Jr.timeOf c ts u)) = true
    rcases max_choice u.wm (Jr.timeOf c ts u) with hm | hm <;> rw [hm] <;> assumption

end Sys2Proof.Machine
end

section
/-! Each command of a parser keeps its invariant (10_state.md R36, R39, R41, R42; 42_byte_stream_parser.md). -/

namespace Sys2Proof.Machine

theorem BpInv.accum7 {cap : Option Nat} {u : Bp} (h : BpInv cap u) : Accum7Inv cap u.acc := ⟨h.acc, h.payload⟩

theorem BpInv.powerOn (cap : Option Nat) : BpInv cap Bp.powerOn where
  noMessage _ := ⟨rfl, rfl, rfl, rfl⟩
  message _ hs := nomatch hs
  messageRunning _ hs := nomatch hs
  running _ hr := nomatch hr
  slots := by decide
  fragment := ⟨by decide, .nil, fun hf => nomatch hf⟩
  noSysex _ := ⟨rfl, rfl, rfl⟩
  packetsMode _ := rfl
  payloadMode _ := ⟨rfl, rfl⟩
  acc := .clear
  payload := ⟨.nil, .zero cap⟩

/-! ### The parts of an update -/

theorem BpInv.dropMessage {cap : Option Nat} {u : Bp} (h : BpInv cap u) : BpInv cap u.dropMessage :=
  { h with
    noMessage := fun _ => ⟨rfl, rfl, rfl, rfl⟩
    message := fun _ hs => nomatch hs
    messageRunning := fun _ hs => nomatch hs
    slots := by simp [Bp.dropMessage] }

theorem BpInv.dropSysex {cap : Option Nat} {u : Bp} (h : BpInv cap u) : BpInv cap u.dropSysex :=
  { h with
    message := fun s hs =>
      let ⟨hstatus, hcount, hneed, _⟩ := h.message s hs
      ⟨hstatus, hcount, hneed, rfl⟩
    running := fun r hr =>
      let ⟨hlow, hhigh, _⟩ := h.running r hr
      ⟨hlow, hhigh, rfl⟩
    fragment := ⟨by simp [Bp.dropSysex], .nil, fun hf => nomatch hf⟩
    noSysex := fun _ => ⟨rfl, rfl, rfl⟩
    packetsMode := fun _ => rfl
    payloadMode := fun _ => ⟨rfl, rfl⟩
    acc := .clear
    payload := ⟨.nil, .zero cap⟩ }

/-- Running status may be dropped while no message is pending. -/
theorem BpInv.dropRunning {cap : Option Nat} {u : Bp} (h : BpInv cap u) (hst : u.st = none) :
    BpInv cap { u with rs := none } :=
  { h with
    messageRunning := fun s hs => by rw [show u.st = some s from hs] at hst; cases hst
    running := fun _ hr => nomatch hr }

/-- System exclusive may start when no message is pending and there is no running status. -/
theorem BpInv.startSysex {cap : Option Nat} {u : Bp} (h : BpInv cap u) (hst : u.st = none) (hrs : u.rs = none) :
    BpInv cap { u with sx := true } :=
  { h with
    message := fun s hs => by rw [show u.st = some s from hs] at hst; cases hst
    running := fun r hr => by rw [show u.rs = some r from hr] at hrs; cases hrs
    noSysex := fun hx => nomatch hx }

/-- A channel-voice status becomes the running status (R196), a system-common status ends it (R198). -/
def runningAfter (s : Byte) : Option Byte := if s.toNat ≤ 0xEF then some s else none

theorem dataCount_pos {s : Byte} (h : IsMessageStatus s) : 1 ≤ dataCount s := by
  have hall : ∀ b : Byte, ((0x80 ≤ b.toNat ∧ b.toNat ≤ 0xEF) ∨ b = 0xF1 ∨ b = 0xF2 ∨ b = 0xF3) → 1 ≤ dataCount b := by
    decide
  exact hall s h

theorem IsMessageStatus.running {s r : Byte} (h : IsMessageStatus s) (hr : runningAfter s = some r) :
    0x80 ≤ r.toNat ∧ r.toNat ≤ 0xEF := by
  unfold runningAfter at hr
  split at hr
  · next hle =>
    cases hr
    refine ⟨?_, hle⟩
    rcases h with ⟨hlow, _⟩ | rfl | rfl | rfl
    · exact hlow
    all_goals exact absurd hle (by decide)
  · cases hr

/-- A message begins outside system exclusive, with all its bytes still expected. -/
theorem BpInv.beginMessage {cap : Option Nat} {u : Bp} (h : BpInv cap u) (hsx : u.sx = false) {s : Byte}
    (hs : IsMessageStatus s) : BpInv cap { u.beginMessage s with rs := runningAfter s } :=
  { h with
    noMessage := fun hn => nomatch hn
    message := by
      rintro _ ⟨⟩
      exact ⟨hs, rfl, dataCount_pos hs, hsx⟩
    messageRunning := by
      rintro _ ⟨⟩
      rfl
    running := fun r hr => ⟨(hs.running hr).1, (hs.running hr).2, hsx⟩
    slots := by simp [Bp.beginMessage] }

/-! ### Bytes outside system exclusive (R195 to R201) -/

/-- What `store` writes, `dropMessage` resets. -/
theorem Bp.dropMessage_store (u : Bp) (b : Byte) : (u.store b).dropMessage = u.dropMessage := rfl

theorem BpInv.store {cap : Option Nat} {u : Bp} {s b : Byte} (h : BpInv cap u) (hst : u.st = some s)
    (hb : b.toNat < 0x80) (hmore : (u.store b).need ≠ 0) : BpInv cap (u.store b) := by
  obtain ⟨hstatus, hcount, _, hsx⟩ := h.message s hst
  have hmore : u.need - 1 ≠ 0 := hmore
  exact { h with
    noMessage := fun hn => by rw [show u.st = none from hn] at hst; cases hst
    message := fun s' hs' => by
      obtain rfl : s = s' := Option.some.inj (hst.symm.trans hs')
      exact ⟨hstatus, show u.need - 1 + (u.cur + 1) = _ by omega, show 1 ≤ u.need - 1 by omega, hsx⟩
    slots := by
      obtain ⟨h0, h1⟩ := h.slots
      constructor <;> simp only [Bp.store] <;> split <;> assumption }

theorem BpInv.dataInto {cap : Option Nat} {u : Bp} {s b : Byte} (h : BpInv cap u) (hst : u.st = some s)
    (hb : b.toNat < 0x80) : BpInv cap (u.dataInto s b).1 := by
  unfold Bp.dataInto
  simp only
  split
  · show BpInv cap (u.store b).dropMessage
    exact Bp.dropMessage_store u b ▸ h.dropMessage
  · next hmore => exact h.store hst hb hmore

/-- Running status re-arms its own message (R195). -/
theorem BpInv.rearm {cap : Option Nat} {u : Bp} {s : Byte} (h : BpInv cap u) (hrs : u.rs = some s) :
    BpInv cap (u.beginMessage s) := by
  obtain ⟨hlow, hhigh, hsx⟩ := h.running s hrs
  have hsame : { u.beginMessage s with rs := runningAfter s } = u.beginMessage s := by
    simp [Bp.beginMessage, runningAfter, hhigh, hrs]
  exact hsame ▸ h.beginMessage hsx (.inl ⟨hlow, hhigh⟩)

theorem BpInv.data {cap : Option Nat} {u : Bp} {b : Byte} (h : BpInv cap u) (hb : b.toNat < 0x80) :
    BpInv cap (u.data b).1 := by
  unfold Bp.data
  split
  · next hst => exact h.dataInto hst hb
  · split
    · next hrs => exact (h.rearm hrs).dataInto rfl hb
    · exact h

theorem BpInv.cvStatus {cap : Option Nat} {u : Bp} {b : Byte} (h : BpInv cap u) (hsx : u.sx = false)
    (hlow : 0x80 ≤ b.toNat) (hhigh : b.toNat ≤ 0xEF) : BpInv cap (u.cvStatus b) := by
  have hrs : runningAfter b = some b := if_pos hhigh
  show BpInv cap { u.beginMessage b with rs := some b }
  exact hrs ▸ h.beginMessage hsx (.inl ⟨hlow, hhigh⟩)

theorem BpInv.scStatus {cap : Option Nat} {u : Bp} {b : Byte} (h : BpInv cap u) (hsx : u.sx = false)
    (hb : b = 0xF1 ∨ b = 0xF2 ∨ b = 0xF3) : BpInv cap (u.scStatus b) := by
  have hrs : runningAfter b = none := if_neg (by rcases hb with rfl | rfl | rfl <;> decide)
  show BpInv cap { u.beginMessage b with rs := none }
  exact hrs ▸ h.beginMessage hsx (.inr hb)

theorem BpInv.sxStart {cap : Option Nat} {u : Bp} (h : BpInv cap u) : BpInv cap u.sxStart :=
  (h.dropMessage.dropSysex.dropRunning rfl).startSysex rfl rfl

/-- A byte outside system exclusive, by its class. -/
theorem BpInv.plain {cap : Option Nat} {u : Bp} (h : BpInv cap u) (hsx : u.sx = false) (b : Byte) :
    BpInv cap (u.plain b).1 := by
  unfold Bp.plain
  split
  · next hdata => exact h.data hdata
  next hlow =>
  split
  · next hhigh => exact h.cvStatus hsx (Nat.not_lt.mp hlow) hhigh
  split
  · exact h.sxStart
  split
  · next hsc => exact h.scStatus hsx hsc
  split
  · exact h.dropMessage.dropRunning rfl
  · exact h.dropMessage.dropRunning rfl

/-! ### Bytes of a system-exclusive payload (R202, R203) -/

/-- During system exclusive the held fragment may be any non-empty one, in packets mode. -/
theorem BpInv.holdFragment {cap : Option Nat} {u : Bp} (h : BpInv cap u) (hsx : u.sx = true)
    (hmode : u.cfgMode = .packets) {l : Bytes} (first : Bool) (hlen : l.length ≤ 6) (hl : SevenBit l) (hne : l ≠ []) :
    BpInv cap { u with ffirst := first, fb := l } :=
  { h with
    fragment := ⟨hlen, hl, fun _ => hne⟩
    noSysex := fun hx => absurd (hsx.symm.trans hx) (by decide)
    payloadMode := fun hp => absurd (hmode.symm.trans hp) (by decide) }

/-- During system exclusive the accumulator may be any valid one, in payload mode. -/
theorem BpInv.accumulate {cap : Option Nat} {u : Bp} (h : BpInv cap u) (hsx : u.sx = true)
    (hmode : u.cfgMode = .payload) {a : Accum} (ha : Accum7Inv cap a) : BpInv cap { u with acc := a } :=
  { h with
    noSysex := fun hx => absurd (hsx.symm.trans hx) (by decide)
    packetsMode := fun hp => absurd (hmode.symm.trans hp) (by decide)
    acc := ha.1
    payload := ha.2 }

theorem BpInv.sxAppend {cap : Option Nat} {u u' : Bp} {b : Byte} {ev : List Event} (h : BpInv cap u)
    (hsx : u.sx = true) (hb : b.toNat < 0x80) (hf : u.sxAppend cap b = .ok (u', ev)) : BpInv cap u' := by
  obtain ⟨hlen, hseven, _⟩ := h.fragment
  unfold Bp.sxAppend at hf
  split at hf
  · next hmode =>
    split at hf
    · cases hf
      exact h.holdFragment hsx hmode false (by simp) (SevenBit.nil.append hb) (by simp)
    · next hroom =>
      cases hf
      exact h.holdFragment hsx hmode u.ffirst (by rw [List.length_append, List.length_singleton]; omega)
        (hseven.append hb) (by simp)
  · next hmode =>
    split at hf
    · next hr => cases hf; exact h.accumulate hsx hmode (h.accum7.route7 hr)
    · cases hf
    · cases hf

/-! ### The commands -/

/-- `BP.FEED` (R192): a real-time byte changes nothing; inside system exclusive a byte is appended, ends the payload, or
cancels it and is then read as outside. -/
theorem BpInv.feed {cap : Option Nat} {b : Byte} {u u' : Bp} {ev : List Event} (h : BpInv cap u)
    (hf : Bp.feed cap b u = .ok (u', ev)) : BpInv cap u' := by
  have ofParse : ∀ {x : Bp × List Event}, BpInv cap x.1 → Reply.ok x = .ok (u', ev) → BpInv cap u' := by
    rintro _ hx ⟨⟩
    exact hx
  unfold Bp.feed at hf
  split at hf
  · refine ofParse ?_ hf
    unfold Bp.realtime
    split <;> exact h
  split at hf
  · next hsx =>
    split at hf
    · next hdata => exact h.sxAppend hsx hdata hf
    split at hf
    · exact ofParse h.dropSysex hf
    · exact ofParse (h.dropSysex.plain rfl b) hf
  · next hsx => exact ofParse (h.plain (by simpa using hsx) b) hf

theorem BpInv.cleared {cap : Option Nat} {u : Bp} (h : BpInv cap u) : BpInv cap u.cleared :=
  h.dropMessage.dropSysex.dropRunning rfl

/-- `BP.CFG` (R206): the mode changes only outside system exclusive, where the fields of both modes are at reset. -/
theorem BpInv.configure {cap : Option Nat} {g : BitVec 4} {e m : BitVec 1} {u u' : Bp} {ev : List Event}
    (h : BpInv cap u) (hf : u.configure g e m = .ok (u', ev)) : BpInv cap u' := by
  unfold Bp.configure at hf
  split at hf
  · cases hf
  next hallowed =>
  cases hf
  rcases Bool.eq_false_or_eq_true u.sx with hsx | hsx
  · have hmode : modeOf m = u.cfgMode := by
      by_contra hne
      exact hallowed ⟨hsx, hne⟩
    exact { h with
      packetsMode := fun hp => h.packetsMode (hmode ▸ hp)
      payloadMode := fun hp => h.payloadMode (hmode ▸ hp) }
  · obtain ⟨hfb, hfirst, hacc⟩ := h.noSysex hsx
    exact { h with
      packetsMode := fun _ => hacc
      payloadMode := fun _ => ⟨hfb, hfirst⟩ }

end Sys2Proof.Machine
end

section
/-! Every step keeps the machine's invariant: what each update of the state keeps, then the effects of a command. -/

namespace Sys2Proof.Machine

section

variable {s t : State}

/-! ### Updates of the state -/

theorem MachineInv.take (h : MachineInv s) (f : Frame) (rest : List Frame) : MachineInv (s.take f rest) :=
  { h with }

theorem MachineInv.drawn (h : MachineInv s) : MachineInv s.drawn := { h with }

theorem MachineInv.finish (h : MachineInv s) (v : Option Result) (ev : List Event) : MachineInv (s.finish v ev) :=
  { h with
    faultRecord := by simp [h.faultRecord, Report.isFault]
    refused := by simp [h.refused, Report.isRefusal] }

/-- A fault is reported and recorded. -/
theorem MachineInv.raise (h : MachineInv s) (r : FaultReason) : MachineInv (s.raise r) :=
  { h with
    faultRecord := by simp [Report.isFault]
    refused := by simp [h.refused, Report.isRefusal] }

/-- A refusal is reported and marked. -/
theorem MachineInv.refuse (h : MachineInv s) (r : RefuseReason) : MachineInv (s.refuse r) :=
  { h with
    faultRecord := by simp [h.faultRecord, Report.isFault]
    refused := by simp [Report.isRefusal] }

theorem MachineInv.setBp (h : MachineInv s) (n : Nat) {u : Bp} (hu : BpInv s.params.bpBufCap u) :
    MachineInv (s.setBp n u) :=
  { h with
    bpBank := bankSet_wf _ _ _ _ h.bpBank
    bp := fun m => by
      by_cases hm : m = n
      · rw [hm, State.setBp_bpAt_same]; exact hu
      · rw [State.setBp_bpAt_other _ _ _ _ hm]; exact h.bp m }

theorem MachineInv.setFc7 (h : MachineInv s) (n : Nat) {u : Fc7} (hu : Fc7Inv s.params.fc7BufCap u) :
    MachineInv (s.setFc7 n u) :=
  { h with
    fc7Bank := bankSet_wf _ _ _ _ h.fc7Bank
    fc7 := fun m => by
      by_cases hm : m = n
      · rw [hm, State.setFc7_fc7At_same]; exact hu
      · rw [State.setFc7_fc7At_other _ _ _ _ hm]; exact h.fc7 m }

theorem MachineInv.setFc8 (h : MachineInv s) (n : Nat) {u : Fc8} (hu : Fc8Inv u) : MachineInv (s.setFc8 n u) :=
  { h with
    fc8Bank := bankSet_wf _ _ _ _ h.fc8Bank
    fc8 := fun m => by
      by_cases hm : m = n
      · rw [hm, State.setFc8_fc8At_same]; exact hu
      · rw [State.setFc8_fc8At_other _ _ _ _ hm]; exact h.fc8 m }

theorem MachineInv.setJr (h : MachineInv s) (n : Nat) {u : Jr} (hu : JrInv s.params u) : MachineInv (s.setJr n u) :=
  { h with
    jrBank := bankSet_wf _ _ _ _ h.jrBank
    jr := fun m => by
      by_cases hm : m = n
      · rw [hm, State.setJr_jrAt_same]; exact hu
      · rw [State.setJr_jrAt_other _ _ _ _ hm]; exact h.jr m }

/-! ### Commands and steps -/

/-- Every effect of a command keeps the invariant: what it writes to a unit meets that unit's invariant. -/
theorem MachineInv.effect {i : Instr} (h : MachineInv s) (he : Effect i s t) : MachineInv t := by
  cases he with
  | answered v => exact h.finish _ _
  | faulted r _ => exact h.raise r
  | refused r => exact h.refuse r
  | bpFed b u ev _ hf => exact (h.setBp _ ((h.bp _).feed hf)).finish _ _
  | bpReset _ => exact (h.setBp _ (h.bp _).cleared).finish _ _
  | bpConfigured g e m u ev _ hf => exact (h.setBp _ ((h.bp _).configure hf)).finish _ _
  | fc7Fed p u ev _ hf => exact (h.setFc7 _ ((h.fc7 _).feed hf)).finish _ _
  | fc7Reset _ => exact (h.setFc7 _ (.powerOn _)).finish _ _
  | fc8Fed p _ => exact (h.setFc8 _ ((h.fc8 _).feed _ p)).finish _ _
  | fc8Reset _ => exact (h.setFc8 _ (.cleared _)).finish _ _
  | fc8Configured m _ => exact (h.setFc8 _ ((h.fc8 _).setMax m)).finish _ _
  | jrSynced a ts u ev _ hf => exact (h.setJr _ ((h.jr _).sync hf)).finish _ _
  | jrScheduled ts _ hi hc v _ => exact (h.setJr _ ((h.jr _).schedule hi hc)).finish _ _
  | jrReset _ _ => exact (h.setJr _ (.powerOn h.params)).finish _ _
  | drew _ _ => exact h.drawn.finish _ _

end

/-- Settles O3: a step idles, refuses a reserved code, or takes a transaction and has one of the effects of a command. -/
theorem stepKeepsInvariant : Obligations.StepKeepsInvariant := by
  intro s t h hstep
  obtain ⟨_, ⟨_, rfl⟩ | ⟨f, rest, c, _, _, rfl⟩ | ⟨f, rest, i, _, _, hexec⟩⟩ := step_next_cases hstep
  · exact h
  · exact (h.take f rest).refuse .reservedCmd
  · exact (h.take f rest).effect (exec_effect hexec)

theorem paramsOk_default : ParamsOk Params.default where
  tick := Nat.succ_pos _
  den := by decide
  floorFits := rfl

/-- Settles O2: at reset every unit is in its power-on state, the banks are empty, and nothing has been reported. -/
theorem resetMeetsInvariant : Obligations.ResetMeetsInvariant where
  params := paramsOk_default
  bpBank := by decide
  fc7Bank := by decide
  fc8Bank := by decide
  jrBank := rfl
  bp _ := .powerOn _
  fc7 _ := .powerOn _
  fc8 _ := .powerOn
  jr _ := .powerOn paramsOk_default
  faultRecord := rfl
  refused := rfl

end Sys2Proof.Machine
end

section
/-! A presented packet runs as its unit's command, whether it has a row of the opcode table or not (30_encoding.md R92,
R99 to R101, R105; log 8): a row's operands are the packet's own fields. -/

namespace Sys2Proof.Machine

/-! ### Packets and their fields -/

/-- Word 0 is its tag, group, fragment kind, count and low half. -/
theorem word0_fields (p : Packet) :
    word0 (tagOf p) (groupField p.w0) (kindOf p ++ countOf p) (dataField p.w0) = p.w0 := by
  apply BitVec.eq_of_toNat_eq
  have := p.w0.isLt
  simp only [word0_toNat, append_toNat, tagOf, groupField, kindOf, countOf, dataField, fieldOf, BitVec.extractLsb'_toNat,
    Nat.shiftRight_eq_div_pow]
  omega

/-- A 7-bit fragment is the T3 packet of its fields. -/
theorem t3Packet_fields {p : Packet} {k : FragKind} (htag : tagOf p = 0x3) (hkind : kindOf p = k.code)
    (h2 : p.w2 = 0) (h3 : p.w3 = 0) :
    t3Packet (groupField p.w0) k (countOf p) (dataField p.w0 ++ p.w1) = p := by
  have h0 := word0_fields p
  rw [htag, hkind] at h0
  have hlow : (dataField p.w0 ++ p.w1).extractLsb' 32 16 = dataField p.w0 := BitVec.extractLsb'_append_eq_left
  have hw1 : (dataField p.w0 ++ p.w1).extractLsb' 0 32 = p.w1 := BitVec.extractLsb'_append_eq_right
  calc t3Packet (groupField p.w0) k (countOf p) (dataField p.w0 ++ p.w1)
      = ⟨p.w0, p.w1, p.w2, p.w3⟩ := by simp only [t3Packet, hlow, hw1, h0, h2, h3]
    _ = p := rfl

/-- The low half of word 0 of a T5 packet is the stream id and the first data byte. -/
theorem dataField_t5 (p : Packet) : sidField p.w0 ++ (t5Data p).extractLsb' 96 8 = dataField p.w0 := by
  apply BitVec.eq_of_toNat_eq
  have := p.w0.isLt
  have := p.w1.isLt
  have := p.w2.isLt
  have := p.w3.isLt
  simp only [append_toNat, sidField, t5Data, dataField, BitVec.extractLsb'_toNat, Nat.shiftRight_eq_div_pow]
  omega

theorem t5Data_words (p : Packet) : (t5Data p).extractLsb' 64 32 = p.w1 ∧ (t5Data p).extractLsb' 32 32 = p.w2 ∧
    (t5Data p).extractLsb' 0 32 = p.w3 := by
  have := p.w1.isLt
  have := p.w2.isLt
  have := p.w3.isLt
  refine ⟨?_, ?_, ?_⟩ <;>
  · apply BitVec.eq_of_toNat_eq
    simp only [append_toNat, t5Data, BitVec.extractLsb'_toNat, Nat.shiftRight_eq_div_pow]
    omega

/-- An 8-bit fragment is the T5 packet of its fields. -/
theorem t5Packet_fields {p : Packet} {k : FragKind} (htag : tagOf p = 0x5) (hkind : kindOf p = k.code) :
    t5Packet (groupField p.w0) k (countOf p) (sidField p.w0) (t5Data p) = p := by
  obtain ⟨h1, h2, h3⟩ := t5Data_words p
  have h0 := word0_fields p
  rw [htag, hkind] at h0
  simp only [t5Packet, dataField_t5, h0, h1, h2, h3]

/-! ### Rows act as the command of the packet -/

/-- The type decoder's answer depends on the tag alone (R92). -/
theorem typeDecode_eq_pkSize {p : Packet} {tag : BitVec 4} (htag : tag = tagOf p) (g : BitVec 4) (st : Byte)
    (d : BitVec 16) (a b c : Word) (s : State) : typeDecode tag g st d a b c s = exec (.pkSize p) s := by
  have hsize : exec (.pkSize p) s = answer .pk (.ok (.bits3 (wordCountOf p))) s := rfl
  rw [hsize, typeDecode, wordCountOf, wordCountOf, tagOf_word0, htag]

/-- What decoding a presented packet may give: no row, or a row that acts as the packet's command. -/
def ActsAsPacket (fmt : PacketFormat) (p : Packet) (d : Except DecodeError Instr) : Prop :=
  d = .error (.noRow fmt p) ∨ ∃ i, d = .ok i ∧ ∀ s, exec i s = exec (packetCommand fmt p) s

section

variable {fmt : PacketFormat} {p : Packet} {i : Instr}

theorem ActsAsPacket.ok (h : ∀ s, exec i s = exec (packetCommand fmt p) s) : ActsAsPacket fmt p (.ok i) :=
  .inr ⟨i, rfl, h⟩

theorem ActsAsPacket.noRow : ActsAsPacket fmt p (.error (.noRow fmt p)) := .inl rfl

theorem ActsAsPacket.oneWord (h : ∀ s, exec i s = exec (.pkSize p) s) : ActsAsPacket .w0 p (oneWord p i) := by
  unfold Sys2Proof.oneWord
  split
  · exact .ok h
  · exact .noRow

theorem ActsAsPacket.twoWords (h : ∀ s, exec i s = exec (.pkSize p) s) : ActsAsPacket .w0 p (twoWords p i) := by
  unfold Sys2Proof.twoWords
  split
  · exact .ok h
  · exact .noRow

/-- Each tag's row is the type decoder's answer for that tag. -/
theorem decodeW0_actsAsPacket (p : Packet) : ActsAsPacket .w0 p (decodeW0 p) := by
  have literal : ∀ {n : Nat}, (tagOf p).toNat = n → BitVec.ofNat 4 n = tagOf p := fun h => by
    rw [← h, BitVec.ofNat_toNat, BitVec.setWidth_eq]
  unfold decodeW0
  simp only
  split
  case h_1 | h_2 | h_3 | h_7 | h_8 | h_9 | h_10 | h_11 | h_12 | h_13 | h_15 =>
    rename_i htag
    exact .oneWord (typeDecode_eq_pkSize (literal htag) _ _ _ _ _ _)
  case h_4 | h_5 =>
    rename_i htag
    exact .twoWords (typeDecode_eq_pkSize (literal htag) _ _ _ _ _ _)
  case h_6 | h_14 =>
    rename_i htag
    exact .ok (typeDecode_eq_pkSize (literal htag) _ _ _ _ _ _)
  case h_16 =>
    have hlt := (tagOf p).isLt
    simp only [imp_false] at *
    have htag : (tagOf p).toNat = 15 := by omega
    exact .ok (typeDecode_eq_pkSize (literal htag) _ _ _ _ _ _)

theorem ActsAsPacket.fragment7 (h : fragment7Of i = some p) : ActsAsPacket .t3 p (.ok i) :=
  .ok fun s => (exec_of_fragment7Of h s).trans (exec_of_fragment7Of (i := .fc7Feed p) rfl s).symm

theorem ActsAsPacket.fragment8 (h : fragment8Of i = some p) : ActsAsPacket .t5 p (.ok i) :=
  .ok fun s => (exec_of_fragment8Of h s).trans (exec_of_fragment8Of (i := .fc8Feed p) rfl s).symm

/-- Each fragment kind's row carries the packet it was presented as. -/
theorem decodeT3_actsAsPacket (p : Packet) : ActsAsPacket .t3 p (decodeT3 p) := by
  unfold decodeT3
  split
  · next hform =>
    obtain ⟨htag, h2, h3⟩ := hform
    have fields : ∀ k : FragKind, (kindOf p).toNat = k.code.toNat →
        some (t3Packet (groupField p.w0) k (countOf p) (dataField p.w0 ++ p.w1)) = some p := fun k hk =>
      congrArg some (t3Packet_fields htag (BitVec.eq_of_toNat_eq hk) h2 h3)
    split
    · next hk => exact .fragment7 (fields .complete hk)
    · next hk => exact .fragment7 (fields .start hk)
    · next hk => exact .fragment7 (fields .cont hk)
    · next hk => exact .fragment7 (fields .end_ hk)
    · exact .noRow
  · exact .noRow

theorem decodeT5_actsAsPacket (p : Packet) : ActsAsPacket .t5 p (decodeT5 p) := by
  unfold decodeT5
  split
  · next htag =>
    have fields : ∀ k : FragKind, (kindOf p).toNat = k.code.toNat →
        some (t5Packet (groupField p.w0) k (countOf p) (sidField p.w0) (t5Data p)) = some p := fun k hk =>
      congrArg some (t5Packet_fields htag (BitVec.eq_of_toNat_eq hk))
    split
    · next hk => exact .fragment8 (fields .complete hk)
    · next hk => exact .fragment8 (fields .start hk)
    · next hk => exact .fragment8 (fields .cont hk)
    · next hk => exact .fragment8 (fields .end_ hk)
    · exact .noRow
  · exact .noRow

theorem decode_packet_actsAsPacket (fmt : PacketFormat) (p : Packet) :
    ActsAsPacket fmt p (decode (.packet fmt p)) := by
  cases fmt with
  | w0 => exact decodeW0_actsAsPacket p
  | t3 => exact decodeT3_actsAsPacket p
  | t5 => exact decodeT5_actsAsPacket p

end

/-- Settles O5: a packet without a row is fetched as its unit's command, and one with a row as a row that acts as it. -/
theorem presentedPacketsReachTheirUnits : Obligations.PresentedPacketsReachTheirUnits := by
  intro s tgt fmt p rest hquiet hinbox
  have hstep : step s = exec (packetCommand fmt p) (s.take ⟨tgt, .packet fmt p⟩ rest) := by
    rcases decode_packet_actsAsPacket fmt p with hnone | ⟨i, hrow, hacts⟩
    · exact step_of_fetch_run (fetch_noRow hquiet hinbox hnone)
    · rw [step_of_fetch_run (fetch_run hquiet hinbox hrow), hacts]
  cases fmt <;> exact hstep

end Sys2Proof.Machine
end

section
/-! A command changes nothing but the unit it addresses (10_state.md R34, 20_memory.md R80). -/

namespace Sys2Proof.Machine

section

variable {s t : State}

/-- What every command leaves as it is: the parameters, the waiting commands, the target, and every unit that is not
addressed. -/
structure OthersUnchanged (s t : State) : Prop where
  params : t.params = s.params
  inbox : t.inbox = s.inbox
  target : t.target = s.target
  bp : ∀ n, s.target ≠ ⟨.bp, n⟩ → t.bpAt n = s.bpAt n
  fc7 : ∀ n, s.target ≠ ⟨.fc7, n⟩ → t.fc7At n = s.fc7At n
  fc8 : ∀ n, s.target ≠ ⟨.fc8, n⟩ → t.fc8At n = s.fc8At n
  jr : ∀ n, s.target ≠ ⟨.jr, n⟩ → t.jrAt n = s.jrAt n

theorem OthersUnchanged.refl (s : State) : OthersUnchanged s s :=
  ⟨rfl, rfl, rfl, fun _ _ => rfl, fun _ _ => rfl, fun _ _ => rfl, fun _ _ => rfl⟩

theorem OthersUnchanged.finish (h : OthersUnchanged s t) (v : Option Result) (ev : List Event) :
    OthersUnchanged s (t.finish v ev) := { h with }

/-- A unit of the addressed kind that is not the addressed one has another number. -/
theorem ne_idx_of_target_ne {u : UnitKind} {n : Nat} (hu : s.target.unit = u) (h : s.target ≠ ⟨u, n⟩) :
    n ≠ s.target.idx := by
  rintro rfl
  exact h (by rw [← hu])

theorem OthersUnchanged.setBp (hu : s.target.unit = .bp) (u : Bp) : OthersUnchanged s (s.setBp s.target.idx u) :=
  { OthersUnchanged.refl s with
    bp := fun _ hn => State.setBp_bpAt_other _ _ _ _ (ne_idx_of_target_ne hu hn) }

theorem OthersUnchanged.setFc7 (hu : s.target.unit = .fc7) (u : Fc7) : OthersUnchanged s (s.setFc7 s.target.idx u) :=
  { OthersUnchanged.refl s with
    fc7 := fun _ hn => State.setFc7_fc7At_other _ _ _ _ (ne_idx_of_target_ne hu hn) }

theorem OthersUnchanged.setFc8 (hu : s.target.unit = .fc8) (u : Fc8) : OthersUnchanged s (s.setFc8 s.target.idx u) :=
  { OthersUnchanged.refl s with
    fc8 := fun _ hn => State.setFc8_fc8At_other _ _ _ _ (ne_idx_of_target_ne hu hn) }

theorem OthersUnchanged.setJr (hu : s.target.unit = .jr) (u : Jr) : OthersUnchanged s (s.setJr s.target.idx u) :=
  { OthersUnchanged.refl s with
    jr := fun _ hn => State.setJr_jrAt_other _ _ _ _ (ne_idx_of_target_ne hu hn) }

/-- An effect writes the addressed unit, or none. -/
theorem Effect.othersUnchanged {i : Instr} (he : Effect i s t) : OthersUnchanged s t := by
  cases he with
  | answered v => exact (OthersUnchanged.refl s).finish _ _
  | faulted r _ => exact { OthersUnchanged.refl s with }
  | refused r => exact { OthersUnchanged.refl s with }
  | bpFed b u ev hu _ => exact (OthersUnchanged.setBp hu _).finish _ _
  | bpReset hu => exact (OthersUnchanged.setBp hu _).finish _ _
  | bpConfigured g e m u ev hu _ => exact (OthersUnchanged.setBp hu _).finish _ _
  | fc7Fed p u ev hu _ => exact (OthersUnchanged.setFc7 hu _).finish _ _
  | fc7Reset hu => exact (OthersUnchanged.setFc7 hu _).finish _ _
  | fc8Fed p hu => exact (OthersUnchanged.setFc8 hu _).finish _ _
  | fc8Reset hu => exact (OthersUnchanged.setFc8 hu _).finish _ _
  | fc8Configured m hu => exact (OthersUnchanged.setFc8 hu _).finish _ _
  | jrSynced a ts u ev hu _ => exact (OthersUnchanged.setJr hu _).finish _ _
  | jrScheduled ts hu _ _ v _ => exact (OthersUnchanged.setJr hu _).finish _ _
  | jrReset hu _ => exact (OthersUnchanged.setJr hu _).finish _ _
  | drew _ _ => exact { OthersUnchanged.refl s with }

end

/-- Settles O14: every next state is an effect of its command, and an effect leaves the rest of the machine as it is. -/
theorem instancesAreIndependent : Obligations.InstancesAreIndependent := by
  intro i s t hexec
  obtain ⟨hparams, hinbox, htarget, hbp, hfc7, hfc8, hjr⟩ := (exec_effect hexec).othersUnchanged
  exact ⟨hparams, hinbox, htarget, hbp, hfc7, hfc8, hjr⟩

end Sys2Proof.Machine
end

section
/-! Suppression (10_state.md R40): a parser with `cfg_emit` = 0 does to its fields what it would do with `cfg_emit` = 1, and
emits nothing. -/

namespace Sys2Proof.Machine

section

variable {u : Bp}

/-- The same parser with `cfg_emit` = 1. -/
def Bp.loud (u : Bp) : Bp := { u with cfgEmit := true }

/-- One operation's result on a suppressed parser, and its result on the same parser not suppressed. -/
def Suppressed (quiet loud : Bp × List Event) : Prop := quiet.2 = [] ∧ loud.1 = quiet.1.loud

/-- The same for a byte that may be refused: both are, for the same reason, or neither is. -/
def SuppressedReply (quiet loud : Reply (Bp × List Event)) : Prop :=
  (∃ x y, quiet = .ok x ∧ loud = .ok y ∧ Suppressed x y) ∨ ∃ r, quiet = .refuse r ∧ loud = .refuse r

theorem SuppressedReply.ok {x y : Bp × List Event} (h : Suppressed x y) : SuppressedReply (.ok x) (.ok y) :=
  .inl ⟨x, y, rfl, rfl, h⟩

/-- `emit` is where `cfg_emit` is read, and it emits nothing while that is 0. -/
theorem Bp.emit_quiet (h : u.cfgEmit = false) (e : Event) : u.emit e = [] := by simp [Bp.emit, h]

theorem realtime_suppressed (h : u.cfgEmit = false) (b : Byte) : Suppressed (u.realtime b) (u.loud.realtime b) := by
  unfold Bp.realtime
  split
  · exact ⟨rfl, rfl⟩
  · exact ⟨Bp.emit_quiet h _, rfl⟩

theorem dataInto_suppressed (h : u.cfgEmit = false) (s b : Byte) :
    Suppressed (u.dataInto s b) (u.loud.dataInto s b) := by
  have hneed : (u.loud.store b).need = (u.store b).need := rfl
  simp only [Bp.dataInto, hneed]
  split
  · exact ⟨Bp.emit_quiet (u := u.store b) h _, rfl⟩
  · exact ⟨rfl, rfl⟩

theorem data_suppressed (h : u.cfgEmit = false) (b : Byte) : Suppressed (u.data b) (u.loud.data b) := by
  have hst : u.loud.st = u.st := rfl
  have hrs : u.loud.rs = u.rs := rfl
  simp only [Bp.data, hst, hrs]
  split
  · exact dataInto_suppressed h _ b
  · split
    · exact dataInto_suppressed (u := u.beginMessage _) h _ b
    · exact ⟨rfl, rfl⟩

theorem plain_suppressed (h : u.cfgEmit = false) (b : Byte) : Suppressed (u.plain b) (u.loud.plain b) := by
  unfold Bp.plain
  split
  · exact data_suppressed h b
  split
  · exact ⟨rfl, rfl⟩
  split
  · exact ⟨rfl, rfl⟩
  split
  · exact ⟨rfl, rfl⟩
  split
  · exact ⟨Bp.emit_quiet h _, rfl⟩
  · exact ⟨rfl, rfl⟩

theorem sxFinish_suppressed (h : u.cfgEmit = false) : Suppressed u.sxFinish u.loud.sxFinish := by
  refine ⟨?_, rfl⟩
  unfold Bp.sxFinish
  simp only
  split <;> exact Bp.emit_quiet h _

theorem sxAppend_suppressed (h : u.cfgEmit = false) (cap : Option Nat) (b : Byte) :
    SuppressedReply (u.sxAppend cap b) (u.loud.sxAppend cap b) := by
  have hmode : u.loud.cfgMode = u.cfgMode := rfl
  have hfb : u.loud.fb = u.fb := rfl
  have hacc : u.loud.acc = u.acc := rfl
  simp only [Bp.sxAppend, hmode, hfb, hacc]
  split
  · split
    · exact .ok ⟨Bp.emit_quiet h _, rfl⟩
    · exact .ok ⟨rfl, rfl⟩
  · split
    · exact .ok ⟨rfl, rfl⟩
    · next hr => exact absurd hr (route7_no_fault _ _ _ _)
    · exact .inr ⟨_, rfl, rfl⟩

theorem feed_suppressed (h : u.cfgEmit = false) (cap : Option Nat) (b : Byte) :
    SuppressedReply (Bp.feed cap b u) (Bp.feed cap b u.loud) := by
  have hsx : u.loud.sx = u.sx := rfl
  simp only [Bp.feed, hsx]
  split
  · exact .ok (realtime_suppressed h b)
  split
  · split
    · exact sxAppend_suppressed h cap b
    split
    · exact .ok (sxFinish_suppressed h)
    · exact .ok (plain_suppressed (u := u.dropSysex) h b)
  · exact .ok (plain_suppressed h b)

end

/-- Settles O40: every byte instruction is `BP.FEED` of its byte, and feeding reads `cfg_emit` only to emit. -/
theorem bpSuppressionKeepsParsing : Obligations.BpSuppressionKeepsParsing := by
  intro i b s hbyte hunit u loud hquiet
  have hexec := exec_of_byteOf hbyte
  have hloud : loud.bpAt loud.target.idx = u.loud := State.setBp_bpAt_same _ _ _
  rcases feed_suppressed hquiet s.params.bpBufCap b with ⟨⟨u', ev⟩, ⟨v, ev'⟩, hq, hl, hev, hv⟩ | ⟨r, hq, hl⟩
  · obtain rfl : ev = [] := hev
    obtain rfl : v = u'.loud := hv
    exact .inl ⟨u', ev', bpBecomes_of (hexec s) hunit hq, bpBecomes_of (hexec loud) hunit (hloud ▸ hl)⟩
  · exact .inr ⟨r, bpRefuses_of (hexec s) hunit hq, bpRefuses_of (hexec loud) hunit (hloud ▸ hl)⟩

end Sys2Proof.Machine
end

section
/-! Every command ends in one of the three outcomes of 60_exceptions.md R320 with at most one event: first the events each
unit's operation can emit, then the outcome of each effect. -/

namespace Sys2Proof.Machine

/-! ### Events of one operation -/

/-- An operation that is not refused emits at most one event. -/
def EmitsAtMostOne {σ : Type} (r : Reply (σ × List Event)) : Prop := ∀ u ev, r = .ok (u, ev) → ev.length ≤ 1

section

variable {σ : Type}

theorem EmitsAtMostOne.ok {x : σ × List Event} (h : x.2.length ≤ 1) : EmitsAtMostOne (.ok x) := by
  rintro _ _ ⟨⟩
  exact h

theorem EmitsAtMostOne.silent (u : σ) : EmitsAtMostOne (.ok (u, [])) := .ok (Nat.zero_le 1)

theorem EmitsAtMostOne.fault (r : FaultReason) : EmitsAtMostOne (σ := σ) (.fault r) := fun _ _ h => nomatch h

theorem EmitsAtMostOne.refuse (r : RefuseReason) : EmitsAtMostOne (σ := σ) (.refuse r) := fun _ _ h => nomatch h

end

/-! ### The parser (42_byte_stream_parser.md R193 to R206) -/

section

variable (u : Bp) (b : Byte)

theorem Bp.emit_length_le (e : Event) : (u.emit e).length ≤ 1 := by
  unfold Bp.emit
  split
  · exact Nat.le_refl 1
  · exact Nat.zero_le 1

theorem Bp.realtime_events_le : (u.realtime b).2.length ≤ 1 := by
  unfold Bp.realtime
  split
  · exact Nat.zero_le 1
  · exact u.emit_length_le _

theorem Bp.dataInto_events_le (s : Byte) : (u.dataInto s b).2.length ≤ 1 := by
  unfold Bp.dataInto
  simp only
  split
  · exact (u.store b).emit_length_le _
  · exact Nat.zero_le 1

theorem Bp.data_events_le : (u.data b).2.length ≤ 1 := by
  unfold Bp.data
  split
  · exact u.dataInto_events_le b _
  · split
    · exact (u.beginMessage _).dataInto_events_le b _
    · exact Nat.zero_le 1

/-- Outside system exclusive only a data byte and a tune request can emit (R195, R199). -/
theorem Bp.plain_events_le : (u.plain b).2.length ≤ 1 := by
  unfold Bp.plain
  split
  · exact u.data_events_le b
  split
  · exact Nat.zero_le 1
  split
  · exact Nat.zero_le 1
  split
  · exact Nat.zero_le 1
  split
  · exact u.emit_length_le _
  · exact Nat.zero_le 1

theorem Bp.sxFinish_events_le : u.sxFinish.2.length ≤ 1 := by
  unfold Bp.sxFinish
  simp only
  split <;> exact u.emit_length_le _

theorem Bp.sxAppend_emitsAtMostOne (cap : Option Nat) : EmitsAtMostOne (u.sxAppend cap b) := by
  unfold Bp.sxAppend
  split
  · split
    · exact .ok (u.emit_length_le _)
    · exact .silent _
  · split
    · exact .silent _
    · exact .fault _
    · exact .refuse _

/-- A byte takes one of the paths of `BP.FEED` (R192); one that cancels a payload emits nothing for it (R205). -/
theorem Bp.feed_emitsAtMostOne (cap : Option Nat) : EmitsAtMostOne (Bp.feed cap b u) := by
  unfold Bp.feed
  split
  · exact .ok (u.realtime_events_le b)
  split
  · split
    · exact u.sxAppend_emitsAtMostOne b cap
    split
    · exact .ok u.sxFinish_events_le
    · exact .ok (u.dropSysex.plain_events_le b)
  · exact .ok (u.plain_events_le b)

theorem Bp.configure_emitsAtMostOne (g : BitVec 4) (e m : BitVec 1) : EmitsAtMostOne (u.configure g e m) := by
  unfold Bp.configure
  split
  · exact .refuse _
  · exact .silent _

end

/-! ### The collectors and the clock follower (43_fragment_collectors.md R247, R251; 44_jitter_clock_follower.md R292) -/

theorem Fc7.collect_emitsAtMostOne (cap : Option Nat) (k : FragKind) (l : Bytes) (u : Fc7) :
    EmitsAtMostOne (Fc7.collect cap k l u) := by
  unfold Fc7.collect
  split
  · split
    · exact .ok (Nat.le_refl 1)
    · exact .silent _
  · exact .fault _
  · exact .refuse _

theorem Fc7.feed_emitsAtMostOne (cap : Option Nat) (p : Packet) (u : Fc7) : EmitsAtMostOne (Fc7.feed cap p u) := by
  unfold Fc7.feed
  split
  · split
    · exact .silent _
    · simp only
      split
      · exact Fc7.collect_emitsAtMostOne _ _ _ _
      · split
        · exact .silent _
        · exact Fc7.collect_emitsAtMostOne _ _ _ _
  · exact .silent _

theorem Fc8.collect_events_le (flag : Bool) (k : FragKind) (l : Bytes) (u : Fc8) :
    (Fc8.collect flag k l u).2.length ≤ 1 := by
  unfold Fc8.collect
  simp only
  split
  · exact Nat.le_refl 1
  · exact Nat.zero_le 1

theorem Fc8.feed_events_le (flag : Bool) (p : Packet) (u : Fc8) : (Fc8.feed flag p u).2.length ≤ 1 := by
  unfold Fc8.feed
  split
  · split
    · exact Nat.zero_le 1
    · simp only
      split
      · split
        · exact Nat.zero_le 1
        · exact Fc8.collect_events_le _ _ _ _
      · split
        · exact Nat.zero_le 1
        · split
          · exact Nat.zero_le 1
          · exact Fc8.collect_events_le _ _ _ _
  · exact Nat.zero_le 1

theorem Jr.sync_emitsAtMostOne (c : Params) (t : Nat) (ts : BitVec 16) (u : Jr) :
    EmitsAtMostOne (Jr.sync c t ts u) := by
  unfold Jr.sync
  simp only
  split
  · exact .refuse _
  split
  · exact .silent _
  split
  · exact .silent _
  · exact .refuse _

/-! ### Outcomes -/

/-- Nothing has been reported or marked between the two states; a unit may have been written or a free value drawn. -/
structure RecordsUnchanged (s u : State) : Prop where
  faultRec : u.faultRec = s.faultRec
  refusedMark : u.refusedMark = s.refusedMark
  responses : u.responses = s.responses

/-- The three outcomes of a command (R320, R322, R324): OK after writes to units, or a fault or a refusal of the state the
command found. -/
inductive CommandOutcome (s : State) : State → Prop where
  | ok {u : State} (hu : RecordsUnchanged s u) (v : Option Result) {ev : List Event} (hev : ev.length ≤ 1) :
      CommandOutcome s (u.finish v ev)
  | fault (r : FaultReason) : CommandOutcome s (s.raise r)
  | refused (r : RefuseReason) : CommandOutcome s (s.refuse r)

section

variable {s : State}

theorem RecordsUnchanged.refl : RecordsUnchanged s s := ⟨rfl, rfl, rfl⟩
theorem RecordsUnchanged.drawn : RecordsUnchanged s s.drawn := ⟨rfl, rfl, rfl⟩
theorem RecordsUnchanged.setBp (n : Nat) (u : Bp) : RecordsUnchanged s (s.setBp n u) := ⟨rfl, rfl, rfl⟩
theorem RecordsUnchanged.setFc7 (n : Nat) (u : Fc7) : RecordsUnchanged s (s.setFc7 n u) := ⟨rfl, rfl, rfl⟩
theorem RecordsUnchanged.setFc8 (n : Nat) (u : Fc8) : RecordsUnchanged s (s.setFc8 n u) := ⟨rfl, rfl, rfl⟩
theorem RecordsUnchanged.setJr (n : Nat) (u : Jr) : RecordsUnchanged s (s.setJr n u) := ⟨rfl, rfl, rfl⟩

theorem CommandOutcome.silent {u : State} (hu : RecordsUnchanged s u) (v : Option Result) :
    CommandOutcome s (u.finish v []) := .ok hu v (Nat.zero_le 1)

end

/-- An effect that writes a unit is OK with the events of that unit's operation; every other effect emits nothing. -/
theorem Effect.commandOutcome {i : Instr} {s t : State} (he : Effect i s t) : CommandOutcome s t := by
  cases he with
  | answered v => exact .silent .refl _
  | faulted r _ => exact .fault r
  | refused r => exact .refused r
  | bpFed b u ev _ hf => exact .ok (.setBp _ u) _ (Bp.feed_emitsAtMostOne _ b _ _ _ hf)
  | bpReset _ => exact .silent (.setBp _ _) _
  | bpConfigured g e m u ev _ hf => exact .ok (.setBp _ u) _ (Bp.configure_emitsAtMostOne _ g e m _ _ hf)
  | fc7Fed p u ev _ hf => exact .ok (.setFc7 _ u) _ (Fc7.feed_emitsAtMostOne _ p _ _ _ hf)
  | fc7Reset _ => exact .silent (.setFc7 _ _) _
  | fc8Fed p _ => exact .ok (.setFc8 _ _) _ (Fc8.feed_events_le _ p _)
  | fc8Reset _ => exact .silent (.setFc8 _ _) _
  | fc8Configured m _ => exact .silent (.setFc8 _ _) _
  | jrSynced a ts u ev _ hf => exact .ok (.setJr _ u) _ (Jr.sync_emitsAtMostOne _ a ts _ _ _ hf)
  | jrScheduled ts _ _ _ v _ => exact .silent (.setJr _ _) _
  | jrReset _ _ => exact .silent (.setJr _ _) _
  | drew _ _ => exact .silent .drawn _

/-- Settles O13: every next state is an effect of its command, and an effect is one of the three outcomes. -/
theorem oneOutcomePerCommand : Obligations.OneOutcomePerCommand := by
  intro i s t hexec
  cases (exec_effect hexec).commandOutcome with
  | @ok u hu v ev hev =>
    obtain ⟨hfault, hmark, hresponses⟩ := hu
    exact ⟨⟨.ok, v, ev⟩, by rw [State.finish_responses, hresponses], hev, hfault, hmark⟩
  | fault r => exact ⟨⟨.fault r, none, []⟩, rfl, Nat.zero_le 1, rfl, rfl, State.raise_eq s r⟩
  | refused r => exact ⟨⟨.refused r, none, []⟩, rfl, Nat.zero_le 1, rfl, rfl, State.refuse_eq s r⟩

end Sys2Proof.Machine
end

section
/-! The encoder and the decoder are inverse (30_encoding.md R91 to R106): the fields of a packet read back as they were
written, an operand list is read back field by field, and whatever the decoder accepts is what the encoder writes. -/

namespace Sys2Proof.Machine

/-! ### The fields of a packet read back as they were written -/

@[simp] theorem groupField_word0 (tag g : BitVec 4) (st : Byte) (d : BitVec 16) :
    groupField (word0 tag g st d) = g := by
  apply BitVec.eq_of_toNat_eq
  simp only [groupField, BitVec.extractLsb'_toNat, word0_toNat, Nat.shiftRight_eq_div_pow]
  omega

@[simp] theorem statusField_word0 (tag g : BitVec 4) (st : Byte) (d : BitVec 16) :
    statusField (word0 tag g st d) = st := by
  apply BitVec.eq_of_toNat_eq
  simp only [statusField, BitVec.extractLsb'_toNat, word0_toNat, Nat.shiftRight_eq_div_pow]
  omega

@[simp] theorem dataField_word0 (tag g : BitVec 4) (st : Byte) (d : BitVec 16) : dataField (word0 tag g st d) = d :=
  BitVec.extractLsb'_append_eq_right

/-- R101: the kind and the count are the two halves of the status byte. -/
theorem statusField_eq_kind_count (p : Packet) : statusField p.w0 = kindOf p ++ countOf p := by
  apply BitVec.eq_of_toNat_eq
  simp only [append_toNat, statusField, kindOf, countOf, fieldOf, BitVec.extractLsb'_toNat, Nat.shiftRight_eq_div_pow]
  omega

theorem kindOf_eq (p : Packet) : kindOf p = (statusField p.w0).extractLsb' 4 4 := by
  rw [statusField_eq_kind_count, BitVec.extractLsb'_append_eq_left]

theorem countOf_eq (p : Packet) : countOf p = (statusField p.w0).extractLsb' 0 4 := by
  rw [statusField_eq_kind_count, BitVec.extractLsb'_append_eq_right]

theorem word0_of_own_fields (p : Packet) :
    word0 (tagOf p) (groupField p.w0) (statusField p.w0) (dataField p.w0) = p.w0 := by
  rw [statusField_eq_kind_count, word0_fields]

section

variable (g : BitVec 4) (k : FragKind) (n : BitVec 4) (sid : Byte)

@[simp] theorem tagOf_t3Packet (data : BitVec 48) : tagOf (t3Packet g k n data) = 0x3 := tagOf_word0 ..

@[simp] theorem kindOf_t3Packet (data : BitVec 48) : kindOf (t3Packet g k n data) = k.code := by
  rw [kindOf_eq, t3Packet, statusField_word0, BitVec.extractLsb'_append_eq_left]

@[simp] theorem countOf_t3Packet (data : BitVec 48) : countOf (t3Packet g k n data) = n := by
  rw [countOf_eq, t3Packet, statusField_word0, BitVec.extractLsb'_append_eq_right]

@[simp] theorem groupField_t3Packet (data : BitVec 48) : groupField (t3Packet g k n data).w0 = g :=
  groupField_word0 ..

@[simp] theorem data_t3Packet (data : BitVec 48) :
    dataField (t3Packet g k n data).w0 ++ (t3Packet g k n data).w1 = data := by
  apply BitVec.eq_of_toNat_eq
  simp only [t3Packet, dataField_word0, append_toNat, BitVec.extractLsb'_toNat, Nat.shiftRight_eq_div_pow]
  omega

@[simp] theorem t3Packet_w2 (data : BitVec 48) : (t3Packet g k n data).w2 = 0 := rfl
@[simp] theorem t3Packet_w3 (data : BitVec 48) : (t3Packet g k n data).w3 = 0 := rfl

@[simp] theorem tagOf_t5Packet (data : BitVec 104) : tagOf (t5Packet g k n sid data) = 0x5 := tagOf_word0 ..

@[simp] theorem kindOf_t5Packet (data : BitVec 104) : kindOf (t5Packet g k n sid data) = k.code := by
  rw [kindOf_eq, t5Packet, statusField_word0, BitVec.extractLsb'_append_eq_left]

@[simp] theorem countOf_t5Packet (data : BitVec 104) : countOf (t5Packet g k n sid data) = n := by
  rw [countOf_eq, t5Packet, statusField_word0, BitVec.extractLsb'_append_eq_right]

@[simp] theorem groupField_t5Packet (data : BitVec 104) : groupField (t5Packet g k n sid data).w0 = g :=
  groupField_word0 ..

@[simp] theorem sidField_t5Packet (data : BitVec 104) : sidField (t5Packet g k n sid data).w0 = sid := by
  apply BitVec.eq_of_toNat_eq
  simp only [sidField, t5Packet, BitVec.extractLsb'_toNat, word0_toNat, append_toNat, Nat.shiftRight_eq_div_pow]
  omega

@[simp] theorem t5Data_t5Packet (data : BitVec 104) : t5Data (t5Packet g k n sid data) = data := by
  apply BitVec.eq_of_toNat_eq
  simp only [t5Data, t5Packet, BitVec.extractLsb'_toNat, word0_toNat, append_toNat, Nat.shiftRight_eq_div_pow]
  omega

end

/-! ### Decoding what was encoded -/

theorem decodeByte_data : ∀ v : BitVec 7, decodeByte (0b0#1 ++ v) = .byteData v := by decide
theorem decodeByte_cv80 : ∀ v : BitVec 6, decodeByte (0b10#2 ++ v) = .byteCv80 v := by decide
theorem decodeByte_cvC0 : ∀ v : BitVec 5, decodeByte (0b110#3 ++ v) = .byteCvC0 v := by decide
theorem decodeByte_cvE0 : ∀ v : BitVec 4, decodeByte (0b1110#4 ++ v) = .byteCvE0 v := by decide

/-- Settles O9, row by row: the tag, the kind or the byte selects the row again, and its fields read back. -/
theorem decodeOfEncode : Obligations.DecodeOfEncode := by
  intro i
  cases i
  case byteData v => exact congrArg _ (decodeByte_data v)
  case byteCv80 v => exact congrArg _ (decodeByte_cv80 v)
  case byteCvC0 v => exact congrArg _ (decodeByte_cvC0 v)
  case byteCvE0 v => exact congrArg _ (decodeByte_cvE0 v)
  case byteSxStart | byteScF1 | byteScF2 | byteScF3 | byteUndefF4 | byteUndefF5 | byteTune | byteSxEnd | byteRtF8 |
      byteRtResF9 | byteRtFA | byteRtFB | byteRtFC | byteRtResFD | byteRtFE | byteRtFF => rfl
  case tagUtility | tagSystem | tagCv1 | tagReserved6 | tagReserved7 | tagReserved8 | tagReserved9 | tagReservedA |
      tagReservedB | tagReservedC | tagReservedE => simp [encode, decode, decodeW0, tagOf_word0, oneWord]
  case tagSysex7 | tagCv2 => simp [encode, decode, decodeW0, tagOf_word0, twoWords]
  case tagSysex8 | tagFlex | tagStream => simp [encode, decode, decodeW0, tagOf_word0]
  case t3Complete | t3Start | t3Cont | t3End => simp [encode, decode, decodeT3, FragKind.code]
  case t5Complete | t5Start | t5Cont | t5End => simp [encode, decode, decodeT5, FragKind.code]
  -- the forty commands: every operand field reads back
  all_goals simp [encode, decode, decodeCmd]

/-- Settles O11: the transactions are closed terms. -/
theorem sampleTransactionsDecode : Obligations.SampleTransactionsDecode := by
  unfold Obligations.SampleTransactionsDecode
  decide

/-! ### Reading operand fields (R96): what a reader accepts starts with its field -/

section

variable {α : Type} {a : α} {fs : List Field}

theorem withNum_some {w : Nat} {k : BitVec w → List Field → Option α} (h : withNum w k fs = some a) :
    ∃ (v : BitVec w) (rest : List Field), fs = .num v.toNat :: rest ∧ k v rest = some a := by
  unfold withNum at h
  split at h
  · split at h
    · next hlt => exact ⟨_, _, by rw [BitVec.toNat_ofNat, Nat.mod_eq_of_lt hlt], h⟩
    · cases h
  · cases h

theorem withTime_some {k : Nat → List Field → Option α} (h : withTime k fs = some a) :
    ∃ (v : Nat) (rest : List Field), fs = .num v :: rest ∧ k v rest = some a := by
  unfold withTime at h
  split at h
  · exact ⟨_, _, rfl, h⟩
  · cases h

theorem withPacket_some {k : Packet → List Field → Option α} (h : withPacket k fs = some a) :
    ∃ (p : Packet) (rest : List Field), fs = .packet p :: rest ∧ k p rest = some a := by
  unfold withPacket at h
  split at h
  · exact ⟨_, _, rfl, h⟩
  · cases h

theorem withBytes_some {k : Bytes → List Field → Option α} (h : withBytes k fs = some a) :
    ∃ (l : Bytes) (rest : List Field), fs = .bytes l :: rest ∧ k l rest = some a := by
  unfold withBytes at h
  split at h
  · exact ⟨_, _, rfl, h⟩
  · cases h

theorem withLimit_some {k : Option Nat → List Field → Option α} (h : withLimit k fs = some a) :
    ∃ (m : Option Nat) (rest : List Field), fs = .limit m :: rest ∧ k m rest = some a := by
  unfold withLimit at h
  split at h
  · exact ⟨_, _, rfl, h⟩
  · cases h

theorem noMore_some {i j : Instr} (h : noMore i fs = some j) : fs = [] ∧ i = j := by
  cases fs with
  | nil => exact ⟨rfl, Option.some.inj h⟩
  | cons f rest => cases h

theorem operands_eq_ok {code : Byte} {i : Option Instr} {j : Instr} (h : operands code i = .ok j) : i = some j := by
  cases i with
  | none => cases h
  | some i => cases h; rfl

end

/-- With the fields `before` already read, `k` reads exactly the further fields that the encoder writes for `code`. -/
def ReadsOperands (code : Byte) (before : List Field) (k : List Field → Option Instr) : Prop :=
  ∀ fs i, k fs = some i → encode i = .cmd code (before ++ fs)

section

variable {code : Byte} {before : List Field}

theorem ReadsOperands.done {i : Instr} (h : encode i = .cmd code before) : ReadsOperands code before (noMore i) := by
  intro fs j hj
  obtain ⟨rfl, rfl⟩ := noMore_some hj
  rw [h, List.append_nil]

/-- Reading one field more, of whatever form. -/
theorem ReadsOperands.field {α : Type} {field : α → Field} {k : α → List Field → Option Instr}
    {reader : List Field → Option Instr}
    (hreader : ∀ {fs i}, reader fs = some i → ∃ a rest, fs = field a :: rest ∧ k a rest = some i)
    (h : ∀ a, ReadsOperands code (before ++ [field a]) (k a)) : ReadsOperands code before reader := by
  intro fs i hi
  obtain ⟨a, rest, rfl, hrest⟩ := hreader hi
  rw [h a rest i hrest, List.append_assoc, List.singleton_append]

theorem ReadsOperands.num {w : Nat} {k : BitVec w → List Field → Option Instr}
    (h : ∀ v, ReadsOperands code (before ++ [.num v.toNat]) (k v)) : ReadsOperands code before (withNum w k) :=
  .field withNum_some h

theorem ReadsOperands.time {k : Nat → List Field → Option Instr}
    (h : ∀ t, ReadsOperands code (before ++ [.num t]) (k t)) : ReadsOperands code before (withTime k) :=
  .field withTime_some h

theorem ReadsOperands.packet {k : Packet → List Field → Option Instr}
    (h : ∀ p, ReadsOperands code (before ++ [.packet p]) (k p)) : ReadsOperands code before (withPacket k) :=
  .field withPacket_some h

theorem ReadsOperands.bytes {k : Bytes → List Field → Option Instr}
    (h : ∀ l, ReadsOperands code (before ++ [.bytes l]) (k l)) : ReadsOperands code before (withBytes k) :=
  .field withBytes_some h

theorem ReadsOperands.limit {k : Option Nat → List Field → Option Instr}
    (h : ∀ m, ReadsOperands code (before ++ [.limit m]) (k m)) : ReadsOperands code before (withLimit k) :=
  .field withLimit_some h

end

/-! ### Encoding what was decoded -/

/-- An instruction that decoding `r` gave is encoded as `r`. -/
def EncodesTo (r : Raw) (d : Except DecodeError Instr) : Prop := ∀ i, d = .ok i → encode i = r

section

variable {r : Raw} {p : Packet} {i : Instr}

theorem EncodesTo.ok (h : encode i = r) : EncodesTo r (.ok i) := fun _ hi => by cases hi; exact h

theorem EncodesTo.error (e : DecodeError) : EncodesTo r (.error e) := fun _ hi => nomatch hi

theorem EncodesTo.operands {code : Byte} {n : Nat} {k : List Field → Option Instr} {fs : List Field}
    (hcode : code.toNat = n) (hk : ReadsOperands (BitVec.ofNat 8 n) [] k) :
    EncodesTo (.cmd code fs) (operands code (k fs)) := by
  intro i hi
  rw [hk fs i (operands_eq_ok hi), ← hcode, BitVec.ofNat_toNat, BitVec.setWidth_eq, List.nil_append]

theorem EncodesTo.oneWord (h : encode i = .packet .w0 ⟨p.w0, 0, 0, 0⟩) :
    EncodesTo (.packet .w0 p) (oneWord p i) := by
  unfold Sys2Proof.oneWord
  split
  · next hzero =>
    obtain ⟨h1, h2, h3⟩ := hzero
    rw [← congr (congr (congrArg (Packet.mk p.w0) h1) h2) h3] at h
    exact .ok h
  · exact .error _

theorem EncodesTo.twoWords (h : encode i = .packet .w0 ⟨p.w0, p.w1, 0, 0⟩) :
    EncodesTo (.packet .w0 p) (twoWords p i) := by
  unfold Sys2Proof.twoWords
  split
  · next hzero =>
    obtain ⟨h2, h3⟩ := hzero
    rw [← congr (congrArg (Packet.mk p.w0 p.w1) h2) h3] at h
    exact .ok h
  · exact .error _

end

/-- R94, R96: the codes, grouped by the form of their operand fields. -/
theorem decodeCmd_encodesTo (c : Byte) (fs : List Field) : EncodesTo (.cmd c fs) (decodeCmd c fs) := by
  unfold decodeCmd
  split <;> rename_i hc
  case h_1 => exact .operands hc (.num fun _ => .num fun _ => .num fun _ => .num fun _ => .num fun _ => .done rfl)
  case h_2 | h_3 | h_4 | h_5 | h_28 | h_30 => exact .operands hc (.packet fun _ => .done rfl)
  case h_6 | h_8 | h_10 | h_12 | h_14 | h_16 => exact .operands hc (.packet fun _ => .num fun _ => .done rfl)
  case h_7 | h_9 | h_11 | h_13 | h_15 => exact .operands hc (.packet fun _ => .num fun _ => .num fun _ => .done rfl)
  case h_17 | h_18 | h_19 | h_20 | h_21 | h_22 | h_23 | h_24 | h_25 => exact .operands hc (.num fun _ => .done rfl)
  case h_26 | h_29 | h_31 | h_40 => exact .operands hc (.done rfl)
  case h_27 => exact .operands hc (.num fun _ => .num fun _ => .num fun _ => .done rfl)
  case h_32 => exact .operands hc (.limit fun _ => .done rfl)
  case h_33 | h_34 | h_35 => exact .operands hc (.num fun _ => .bytes fun _ => .done rfl)
  case h_36 => exact .operands hc (.num fun _ => .bytes fun _ => .num fun _ => .done rfl)
  case h_37 => exact .operands hc (.num fun _ => .bytes fun _ => .num fun _ => .num fun _ => .done rfl)
  case h_38 | h_39 => exact .operands hc (.time fun _ => .num fun _ => .done rfl)
  case h_41 => exact .error _

theorem decodeW0_encodesTo (p : Packet) : EncodesTo (.packet .w0 p) (decodeW0 p) := by
  have rebuilt : ∀ {n : Nat}, (tagOf p).toNat = n →
      word0 (BitVec.ofNat 4 n) (groupField p.w0) (statusField p.w0) (dataField p.w0) = p.w0 := fun htag => by
    rw [← htag, BitVec.ofNat_toNat, BitVec.setWidth_eq, word0_of_own_fields]
  unfold decodeW0
  simp only
  split
  case h_1 | h_2 | h_3 | h_7 | h_8 | h_9 | h_10 | h_11 | h_12 | h_13 | h_15 =>
    rename_i htag
    exact .oneWord (congrArg (fun w => Raw.packet .w0 ⟨w, 0, 0, 0⟩) (rebuilt htag))
  case h_4 | h_5 =>
    rename_i htag
    exact .twoWords (congrArg (fun w => Raw.packet .w0 ⟨w, p.w1, 0, 0⟩) (rebuilt htag))
  case h_6 | h_14 =>
    rename_i htag
    exact .ok (congrArg (fun w => Raw.packet .w0 ⟨w, p.w1, p.w2, p.w3⟩) (rebuilt htag))
  case h_16 =>
    simp only [imp_false] at *
    have htag : (tagOf p).toNat = 15 := by omega
    exact .ok (congrArg (fun w => Raw.packet .w0 ⟨w, p.w1, p.w2, p.w3⟩) (rebuilt htag))

theorem decodeT3_encodesTo (p : Packet) : EncodesTo (.packet .t3 p) (decodeT3 p) := by
  unfold decodeT3
  split
  · next hform =>
    obtain ⟨htag, h2, h3⟩ := hform
    have rebuilt : ∀ k : FragKind, (kindOf p).toNat = k.code.toNat →
        Raw.packet .t3 (t3Packet (groupField p.w0) k (countOf p) (dataField p.w0 ++ p.w1)) = .packet .t3 p :=
      fun k hk => congrArg _ (t3Packet_fields htag (BitVec.eq_of_toNat_eq hk) h2 h3)
    split
    · next hk => exact .ok (rebuilt .complete hk)
    · next hk => exact .ok (rebuilt .start hk)
    · next hk => exact .ok (rebuilt .cont hk)
    · next hk => exact .ok (rebuilt .end_ hk)
    · exact .error _
  · exact .error _

theorem decodeT5_encodesTo (p : Packet) : EncodesTo (.packet .t5 p) (decodeT5 p) := by
  unfold decodeT5
  split
  · next htag =>
    have rebuilt : ∀ k : FragKind, (kindOf p).toNat = k.code.toNat →
        Raw.packet .t5 (t5Packet (groupField p.w0) k (countOf p) (sidField p.w0) (t5Data p)) = .packet .t5 p :=
      fun k hk => congrArg _ (t5Packet_fields htag (BitVec.eq_of_toNat_eq hk))
    split
    · next hk => exact .ok (rebuilt .complete hk)
    · next hk => exact .ok (rebuilt .start hk)
    · next hk => exact .ok (rebuilt .cont hk)
    · next hk => exact .ok (rebuilt .end_ hk)
    · exact .error _
  · exact .error _

theorem encode_decodeByte : ∀ b : Byte, encode (decodeByte b) = .byte b := by decide

/-- Settles O10: in each opcode space the accepted transaction is rebuilt from the fields it was read into. -/
theorem encodeOfDecode : Obligations.EncodeOfDecode := by
  intro r i h
  cases r with
  | cmd c fs => exact decodeCmd_encodesTo c fs i h
  | packet fmt p =>
    cases fmt with
    | w0 => exact decodeW0_encodesTo p i h
    | t3 => exact decodeT3_encodesTo p i h
    | t5 => exact decodeT5_encodesTo p i h
  | byte b => cases h; exact encode_decodeByte b

end Sys2Proof.Machine
end

section
/-! Which transactions are refused, ignored, or run as another command (30_encoding.md R92, R95, R99 to R105;
60_exceptions.md R326). -/

namespace Sys2Proof.Machine

/-! ### Rows and their commands (log 8) -/

theorem byteOf_of_encode {i : Instr} {b : Byte} (h : encode i = .byte b) : byteOf i = some b := by
  cases i <;> cases h
  case byteData v => exact congrArg some (byteData_bits v).symm
  case byteCv80 v => exact congrArg some (byteCv80_bits v).symm
  case byteCvC0 v => exact congrArg some (byteCvC0_bits v).symm
  case byteCvE0 v => exact congrArg some (byteCvE0_bits v).symm
  all_goals rfl

/-- Settles O18: by the row's transaction; a packet row is the one its packet decodes to, which acts as the packet's
command. -/
theorem rowsActAsTheirCommands : Obligations.RowsActAsTheirCommands := by
  intro i s
  have hdecode := decodeOfEncode i
  unfold commandOf
  split
  · rfl
  · next b hb => exact exec_of_byteOf (byteOf_of_encode hb) s
  · next fmt p hp =>
    rw [hp] at hdecode
    rcases decode_packet_actsAsPacket fmt p with hnone | ⟨j, hrow, hacts⟩
    · cases hdecode.symm.trans hnone
    · cases hdecode.symm.trans hrow
      exact hacts s

/-- A tag row answers the word count of its tag. -/
theorem tagRow_answers {i : Instr} {tag g : BitVec 4} {st : Byte} {d : BitVec 16} {a b c : Word} {n : BitVec 3}
    {s : State} (hrow : exec i s = typeDecode tag g st d a b c s) (hwords : BitVec.ofNat 3 (wordsOf tag) = n)
    (hu : s.target.unit = .pk) : Answers i s (.bits3 n) := by
  refine answers_of (hrow.trans ?_) hu
  rw [typeDecode, wordCountOf, tagOf_word0, hwords]

/-- Settles O27: each row is the type decoder at its own tag. -/
theorem tagRowsAnswerWordCount : Obligations.TagRowsAnswerWordCount := by
  intro g st d w1 w2 w3 s hu
  refine ⟨?_, ?_, ?_, ?_, ?_, ?_, ?_, ?_, ?_, ?_, ?_, ?_, ?_, ?_, ?_, ?_⟩ <;> exact tagRow_answers rfl rfl hu

/-! ### Refused commands (R95) -/

theorem operands_ne_reservedCmd (code c : Byte) (i : Option Instr) :
    operands code i ≠ .error (.reservedCmd c) := by
  cases i with
  | none => exact fun h => nomatch h
  | some i => exact fun h => nomatch h

/-- The ranges of R95. -/
def IsReservedCode (c : Byte) : Prop :=
  (0x18 ≤ c.toNat ∧ c.toNat ≤ 0x1F) ∨ (0x23 ≤ c.toNat ∧ c.toNat ≤ 0x2F) ∨ (0x32 ≤ c.toNat ∧ c.toNat ≤ 0x3F) ∨
    (0x43 ≤ c.toNat ∧ c.toNat ≤ 0x4F) ∨ (0x55 ≤ c.toNat ∧ c.toNat ≤ 0x5F) ∨ 0x63 ≤ c.toNat

/-- The code map has an arm for exactly the codes that are in none of R95's ranges. -/
theorem decodeCmd_reserved_iff (c : Byte) (fs : List Field) :
    decodeCmd c fs = .error (.reservedCmd c) ↔ IsReservedCode c := by
  unfold decodeCmd IsReservedCode
  split
  case h_41 =>
    simp only [imp_false] at *
    exact ⟨fun _ => by omega, fun _ => trivial⟩
  all_goals exact ⟨fun h => absurd h (operands_ne_reservedCmd _ _ _), fun h => by omega⟩

theorem fetch_reserved {s : State} {f : Frame} {rest : List Frame} {c : Byte} (hq : s.faultRec = none)
    (hi : s.inbox = f :: rest) (hd : decode f.raw = .error (.reservedCmd c)) :
    fetch s = .reserved ((s.take f rest).refuse .reservedCmd) := by
  simp [fetch, hq, hi, hd]

/-- R326: every instruction asks for its unit before anything else. -/
theorem exec_eq_atUnit (i : Instr) (s : State) : ∃ body, exec i s = atUnit (unitOf i) s body := by
  cases i <;> exact ⟨_, rfl⟩

theorem refuses_wrongUnit {i : Instr} {s : State} (h : s.target.unit ≠ unitOf i) : Refuses i s .wrongUnit := by
  obtain ⟨body, hbody⟩ := exec_eq_atUnit i s
  exact hbody.trans (atUnit_of_ne h)

theorem unitOfCode_of_encode {i : Instr} {c : Byte} {fs : List Field} (h : encode i = .cmd c fs) :
    unitOfCode c = some (unitOf i) := by
  cases i <;> cases h <;> rfl

/-- Settles O8: a decoded command is the encoder's, so its code is its instruction's and selects its unit. -/
theorem reservedAndMisaddressedCommandsAreRefused : Obligations.ReservedAndMisaddressedCommandsAreRefused := by
  refine ⟨decodeCmd_reserved_iff, fun s tgt c fs rest hquiet hinbox hreserved => ?_, fun s c fs i hdecode hunit => ?_⟩
  · rw [step, fetch_reserved hquiet hinbox hreserved]
    rfl
  · rw [unitOfCode_of_encode (encodeOfDecode _ _ hdecode)] at hunit
    exact refuses_wrongUnit fun h => hunit (congrArg some h)

/-! ### Ignored fragments (R105) -/

theorem isFamily_sysex7_iff (p : Packet) : isFamily p 0x3 = true ↔
    p.w0.toNat / 2 ^ 28 = 3 ∧ p.w0.toNat / 2 ^ 20 % 16 ≤ 3 ∧ p.w0.toNat / 2 ^ 16 % 16 ≤ 6 := by
  have htag : (tagOf p == 0x3) = true ↔ (tagOf p).toNat = 3 := by
    rw [beq_iff_eq, ← BitVec.toNat_inj]; rfl
  have hstatus : statusOk 0x3 (statusOf p) = true ↔ (statusOf p).toNat / 16 ≤ 3 ∧ (statusOf p).toNat % 16 ≤ 6 := by
    simp [statusOk]
  rw [isFamily, Bool.and_eq_true, htag, hstatus]
  simp only [tagOf, statusOf, fieldOf, BitVec.extractLsb'_toNat, Nat.shiftRight_eq_div_pow]
  omega

theorem isFamily_sysex8_iff (p : Packet) : isFamily p 0x5 = true ↔ p.w0.toNat / 2 ^ 28 = 5 ∧
    p.w0.toNat / 2 ^ 20 % 16 ≤ 3 ∧ 1 ≤ p.w0.toNat / 2 ^ 16 % 16 ∧ p.w0.toNat / 2 ^ 16 % 16 ≤ 14 := by
  have htag : (tagOf p == 0x5) = true ↔ (tagOf p).toNat = 5 := by
    rw [beq_iff_eq, ← BitVec.toNat_inj]; rfl
  have hstatus : statusOk 0x5 (statusOf p) = true ↔
      (statusOf p).toNat / 16 ≤ 3 ∧ 1 ≤ (statusOf p).toNat % 16 ∧ (statusOf p).toNat % 16 ≤ 14 := by
    simp [statusOk, and_assoc]
  rw [isFamily, Bool.and_eq_true, htag, hstatus]
  simp only [tagOf, statusOf, fieldOf, BitVec.extractLsb'_toNat, Nat.shiftRight_eq_div_pow]
  omega

theorem Fc7.feed_unrecognized (cap : Option Nat) {p : Packet} (u : Fc7) (h : isFamily p 0x3 = false) :
    Fc7.feed cap p u = .ok (u, []) := by
  rw [Fc7.feed, h]
  exact if_neg Bool.false_ne_true

theorem Fc8.feed_unrecognized (flag : Bool) {p : Packet} (u : Fc8) (h : isFamily p 0x5 = false) :
    Fc8.feed flag p u = (u, []) := by
  rw [Fc8.feed, h]
  exact if_neg Bool.false_ne_true

section

variable {i : Instr} {s : State}

/-- A collector that becomes what it was leaves every collector as it was. -/
theorem Fc7Becomes.unchanged (h : Fc7Becomes i s (s.fc7At s.target.idx) []) :
    ∃ t, exec i s = .next t ∧ (∀ m, t.fc7At m = s.fc7At m) ∧
      t = { s with fc7 := t.fc7, responses := s.responses ++ [⟨.ok, none, []⟩] } := by
  obtain ⟨t, hexec, hsame, hother, hframe⟩ := h
  refine ⟨t, hexec, fun m => ?_, hframe⟩
  by_cases hm : m = s.target.idx
  · rw [hm, hsame]
  · exact hother m hm

theorem Fc8Becomes.unchanged (h : Fc8Becomes i s (s.fc8At s.target.idx) []) :
    ∃ t, exec i s = .next t ∧ (∀ m, t.fc8At m = s.fc8At m) ∧
      t = { s with fc8 := t.fc8, responses := s.responses ++ [⟨.ok, none, []⟩] } := by
  obtain ⟨t, hexec, hsame, hother, hframe⟩ := h
  refine ⟨t, hexec, fun m => ?_, hframe⟩
  by_cases hm : m = s.target.idx
  · rw [hm, hsame]
  · exact hother m hm

theorem fc7Feed_unrecognized {p : Packet} (hu : s.target.unit = .fc7) (h : isFamily p 0x3 = false) :
    Fc7Becomes (.fc7Feed p) s (s.fc7At s.target.idx) [] :=
  fc7Becomes_of (f := fun c u => Fc7.feed c.fc7BufCap p u) rfl hu (Fc7.feed_unrecognized _ _ h)

theorem fc8Feed_unrecognized {p : Packet} (hu : s.target.unit = .fc8) (h : isFamily p 0x5 = false) :
    Fc8Becomes (.fc8Feed p) s (s.fc8At s.target.idx) [] :=
  fc8Becomes_of (f := fun c u => .ok (Fc8.feed c.fc8TruncFlag p u)) rfl hu
    (congrArg Reply.ok (Fc8.feed_unrecognized _ _ h))

end

/-- Settles O6: the packet reaches its collector, whose family check it fails. -/
theorem unrecognizedFragmentsAreIgnored : Obligations.UnrecognizedFragmentsAreIgnored := by
  intro s n p rest hquiet
  refine ⟨fun hinbox hform => ?_, fun hinbox hform => ?_⟩
  · rw [presentedPacketsReachTheirUnits s _ .t3 p rest hquiet hinbox]
    rw [← isFamily_sysex7_iff, Bool.not_eq_true] at hform
    exact (fc7Feed_unrecognized rfl hform).unchanged
  · rw [presentedPacketsReachTheirUnits s _ .t5 p rest hquiet hinbox]
    rw [← isFamily_sysex8_iff, Bool.not_eq_true] at hform
    exact (fc8Feed_unrecognized rfl hform).unchanged

end Sys2Proof.Machine
end

section
/-! The layouts of the packets the block builds (30_encoding.md R97 to R101): each is the packet of its sixteen bytes. -/

namespace Sys2Proof.Machine

/-- The packet of sixteen bytes, byte 0 first (20_memory.md R71). -/
def packetOfBytes (b : Nat → Byte) : Packet where
  w0 := b 0 ++ b 1 ++ b 2 ++ b 3
  w1 := b 4 ++ b 5 ++ b 6 ++ b 7
  w2 := b 8 ++ b 9 ++ b 10 ++ b 11
  w3 := b 12 ++ b 13 ++ b 14 ++ b 15

theorem fieldOf_four_bytes (a b c d : Byte) :
    fieldOf 8 (a ++ b ++ c ++ d) 24 = a ∧ fieldOf 8 (a ++ b ++ c ++ d) 16 = b ∧
      fieldOf 8 (a ++ b ++ c ++ d) 8 = c ∧ fieldOf 8 (a ++ b ++ c ++ d) 0 = d := by
  refine ⟨?_, ?_, ?_, ?_⟩ <;>
  · apply BitVec.eq_of_toNat_eq
    simp only [fieldOf, BitVec.extractLsb'_toNat, append_toNat, Nat.shiftRight_eq_div_pow]
    omega

theorem getByte_packetOfBytes (b : Nat → Byte) {j : Nat} (hj : j < 16) : getByte (packetOfBytes b) j = b j := by
  interval_cases j <;> simp only [getByte, packetOfBytes, wordOf, Nat.reduceDiv, Nat.reduceMod, Nat.reduceMul,
    Nat.reduceSub, fieldOf_four_bytes]

/-- The bytes of a T3 packet (R99). -/
def t3Byte (g : BitVec 4) (k : FragKind) (l : Bytes) : Nat → Byte
  | 0 => (0x3 : BitVec 4) ++ g
  | 1 => k.code ++ BitVec.ofNat 4 l.length
  | j + 2 => byteAt l j

/-- The bytes of a T5 packet (R100). -/
def t5Byte (g : BitVec 4) (k : FragKind) (sid : Byte) (l : Bytes) : Nat → Byte
  | 0 => (0x5 : BitVec 4) ++ g
  | 1 => k.code ++ BitVec.ofNat 4 (l.length + 1)
  | 2 => sid
  | j + 3 => byteAt l j

theorem byteAt_of_length_le {l : Bytes} {j : Nat} (h : l.length ≤ j) : byteAt l j = 0 := by
  rw [byteAt, List.getD_eq_default _ _ h]

/-- T3 has no room for a seventh data byte: words 2 and 3 are 0. -/
theorem t3_eq_packetOfBytes (g : BitVec 4) (k : FragKind) {l : Bytes} (h : l.length ≤ 6) :
    t3 g k l = packetOfBytes (t3Byte g k l) := by
  have past : ∀ j, 6 ≤ j → byteAt l j = 0 := fun j hj => byteAt_of_length_le (h.trans hj)
  simp only [t3, t3Packet, packetOfBytes, t3Byte, Packet.mk.injEq]
  refine ⟨?_, ?_, ?_, ?_⟩
  · apply BitVec.eq_of_toNat_eq
    simp only [word0_toNat, append_toNat, BitVec.extractLsb'_toNat, Nat.shiftRight_eq_div_pow]
    omega
  · apply BitVec.eq_of_toNat_eq
    simp only [append_toNat, BitVec.extractLsb'_toNat, Nat.shiftRight_eq_div_pow]
    omega
  · simp [past]
  · simp [past]

theorem t5_eq_packetOfBytes (g : BitVec 4) (k : FragKind) (sid : Byte) (l : Bytes) :
    t5 g k sid l = packetOfBytes (t5Byte g k sid l) := by
  simp only [t5, t5Packet, packetOfBytes, t5Byte, Packet.mk.injEq]
  refine ⟨?_, ?_, ?_, ?_⟩ <;>
  · apply BitVec.eq_of_toNat_eq
    simp only [word0_toNat, append_toNat, BitVec.extractLsb'_toNat, Nat.shiftRight_eq_div_pow]
    omega

theorem word0_two_bytes (tag g : BitVec 4) (st d1 d2 : Byte) : word0 tag g st (d1 ++ d2) = BitVec.ofNat 32
    (tag.toNat * 2 ^ 28 + g.toNat * 2 ^ 24 + st.toNat * 2 ^ 16 + d1.toNat * 2 ^ 8 + d2.toNat) := by
  rw [Nat.add_assoc _ (d1.toNat * 2 ^ 8), ← append_toNat, ← word0_toNat, BitVec.ofNat_toNat, BitVec.setWidth_eq]

theorem kind_count_toNat (k : FragKind) {n : Nat} (hn : n < 16) :
    (k.code ++ BitVec.ofNat 4 n).toNat = k.code.toNat * 16 + n := by
  simp only [append_toNat, BitVec.toNat_ofNat, Nat.reducePow, Nat.mod_eq_of_lt hn]

/-- Settles O28: T1 and T2 by their word 0, T3 and T5 byte by byte. -/
theorem packetLayouts : Obligations.PacketLayouts := by
  refine ⟨fun g st d1 d2 => ⟨?_, ?_⟩, ⟨rfl, rfl, rfl, rfl⟩, fun g k l j hl hj => ?_, fun g k sid l j hl hj => ?_⟩
  · exact congrArg (fun w => Packet.mk w 0 0 0) (word0_two_bytes 0x1 g st d1 d2)
  · exact congrArg (fun w => Packet.mk w 0 0 0) (word0_two_bytes 0x2 g st d1 d2)
  · rw [← getByte_eq _ _ hj, t3_eq_packetOfBytes g k hl, getByte_packetOfBytes _ hj]
    rcases j with _ | _ | j
    · exact append_toNat _ _
    · exact kind_count_toNat k (by omega)
    · rfl
  · rw [← getByte_eq _ _ hj, t5_eq_packetOfBytes, getByte_packetOfBytes _ hj]
    rcases j with _ | _ | _ | j
    · exact append_toNat _ _
    · exact kind_count_toNat k (by omega)
    · rfl
    · rfl

end Sys2Proof.Machine
end

section
/-! PK, the packet type decoder and field access (40_packet.md R130 to R149). -/

namespace Sys2Proof.Machine

/-! ### A command that checks its operands first -/

section

variable {i : Instr} {s : State} {u : UnitKind} {v : Result} {f : FaultReason} {c : Prop} [Decidable c]

theorem answers_of_guard (h : exec i s = answer u (if c then .fault f else .ok v) s) (hu : s.target.unit = u)
    (hc : ¬ c) : Answers i s v := answers_of (h.trans (by rw [if_neg hc])) hu

theorem faults_of_guard (h : exec i s = answer u (if c then .fault f else .ok v) s) (hu : s.target.unit = u)
    (hc : c) : Faults i s f := faults_of (h.trans (by rw [if_pos hc])) hu

end

/-! ### Construction (R137) -/

/-- Settles O19: `PK.MAKE` checks its word count, and the words from the count on are 0. -/
theorem pkMakeBuildsFromWords : Obligations.PkMakeBuildsFromWords := by
  intro n a0 a1 a2 a3 s hu
  refine ⟨rfl, fun hn => ?_, fun hn => faults_of_guard rfl hu hn⟩
  have hwords : packetOf n.toNat a0 a1 a2 a3 =
      ⟨a0, if 2 ≤ n.toNat then a1 else 0, if 3 ≤ n.toNat then a2 else 0, if n.toNat = 4 then a3 else 0⟩ := by
    have hfirst : 0 < n.toNat := hn.1
    have hlast : 3 < n.toNat ↔ n.toNat = 4 := by omega
    simp only [packetOf, hfirst, hlast, if_true, Nat.succ_le_iff]
  rw [← hwords]
  exact answers_of_guard rfl hu (by omega)

/-! ### Word 0 (R130 to R133) -/

theorem fieldOf_eq_ofNat (n : Nat) (w : Word) (lo : Nat) : fieldOf n w lo = BitVec.ofNat n (w.toNat / 2 ^ lo) := by
  rw [← Nat.shiftRight_eq_div_pow]
  rfl

theorem tagOf_toNat (p : Packet) : (tagOf p).toNat = p.w0.toNat / 2 ^ 28 := by
  rw [tagOf, fieldOf_eq_ofNat, BitVec.toNat_ofNat]
  omega

theorem tagOf_eq_zero_iff (p : Packet) : tagOf p = 0 ↔ p.w0.toNat / 2 ^ 28 = 0 := by
  rw [← BitVec.toNat_inj, tagOf_toNat]
  rfl

theorem statusOf_toNat (p : Packet) : (statusOf p).toNat = p.w0.toNat / 2 ^ 16 % 256 := by
  rw [statusOf, fieldOf_eq_ofNat, BitVec.toNat_ofNat]

/-- R92 as R130 answers it. -/
theorem wordsOf_bits : ∀ tag : BitVec 4, BitVec.ofNat 3 (wordsOf tag) =
    if tag.toNat = 3 ∨ tag.toNat = 4 then 2 else if tag.toNat = 5 ∨ tag.toNat = 0xD ∨ tag.toNat = 0xF then 4 else 1 := by
  decide

/-- Settles O20: each command answers one field of word 0, and `PK.GROUP` checks the tag first. -/
theorem pkReadsWordZero : Obligations.PkReadsWordZero := by
  intro p s hu
  refine ⟨rfl, rfl, rfl, rfl, ?_, ?_, fun htag => ?_, fun htag => ?_, ?_⟩
  · rw [← tagOf_toNat, ← wordsOf_bits]
    exact answers_of rfl hu
  · rw [← fieldOf_eq_ofNat]
    exact answers_of rfl hu
  · exact faults_of_guard rfl hu ((tagOf_eq_zero_iff p).mpr htag)
  · rw [← fieldOf_eq_ofNat]
    exact answers_of_guard rfl hu fun h => htag ((tagOf_eq_zero_iff p).mp h)
  · rw [← fieldOf_eq_ofNat]
    exact answers_of rfl hu

/-! ### Bytes and 7-bit fields (R134, R135, R138, R139) -/

theorem get7_eq (p : Packet) (i : Nat) (hi : i < 16) :
    get7 p i = (packetBits p).extractLsb' (120 - 8 * i) 7 := by
  rw [get7, getByte_eq p i hi]
  apply BitVec.eq_of_toNat_eq
  simp only [BitVec.toNat_setWidth, BitVec.extractLsb'_toNat]
  exact Nat.mod_mod_of_dvd _ (by decide)

theorem packetBits_setByte (p : Packet) {i j : Nat} (v : Byte) (hi : i < 16) (hj : j < 16) :
    (packetBits (setByte p i v)).extractLsb' (120 - 8 * j) 8 =
      if j = i then v else (packetBits p).extractLsb' (120 - 8 * j) 8 := by
  rw [← getByte_eq _ j hj, ← getByte_eq _ j hj, getByte_setByte p i j v hi]

theorem setWidth_seven_eight (v : Byte) : (v.setWidth 7).setWidth 8 = BitVec.ofNat 8 (v.toNat % 128) := by
  apply BitVec.eq_of_toNat_eq
  simp

/-- Settles O21: a byte of a packet is eight bits of its four words. -/
theorem pkByteReads : Obligations.PkByteReads := by
  intro p i s hu
  rw [← getByte_eq p _ i.isLt, ← get7_eq p _ i.isLt]
  exact ⟨rfl, rfl, answers_of rfl hu, answers_of rfl hu⟩

/-- Settles O22: both commands are `setByte`, `PK.SET7` of the operand's low seven bits. -/
theorem pkByteWrites : Obligations.PkByteWrites := by
  intro p i v s hu
  refine ⟨rfl, rfl, ⟨setByte p i.toNat v, answers_of rfl hu, fun j hj => packetBits_setByte p v i.isLt hj⟩,
    setByte p i.toNat ((v.setWidth 7).setWidth 8), answers_of rfl hu, fun j hj => ?_⟩
  rw [← setWidth_seven_eight]
  exact packetBits_setByte p _ i.isLt hj

/-! ### Composite fields (R140 to R144) -/

theorem get14_toNat (p : Packet) {i : Nat} (hi : i ≤ 14) : (get14 p i).toNat =
    ((packetBits p).extractLsb' (120 - 8 * i) 7).toNat +
      2 ^ 7 * ((packetBits p).extractLsb' (120 - 8 * (i + 1)) 7).toNat := by
  rw [← get7_eq p i (by omega), ← get7_eq p (i + 1) (by omega), get14, append_toNat]
  ring

theorem get28_toNat (p : Packet) {i : Nat} (hi : i ≤ 12) : (get28 p i).toNat =
    ((packetBits p).extractLsb' (120 - 8 * i) 7).toNat +
      2 ^ 7 * ((packetBits p).extractLsb' (120 - 8 * (i + 1)) 7).toNat +
      2 ^ 14 * ((packetBits p).extractLsb' (120 - 8 * (i + 2)) 7).toNat +
      2 ^ 21 * ((packetBits p).extractLsb' (120 - 8 * (i + 3)) 7).toNat := by
  rw [← get7_eq p i (by omega), ← get7_eq p (i + 1) (by omega), ← get7_eq p (i + 2) (by omega),
    ← get7_eq p (i + 3) (by omega)]
  simp only [get28, append_toNat]
  ring

/-- Settles O23: the fields are concatenations of 7-bit fields, the first the lowest. -/
theorem pkCompositeReads : Obligations.PkCompositeReads := by
  intro p i s hu
  refine ⟨rfl, rfl, ⟨fun hi => ⟨get14 p i.toNat, ?_, get14_toNat p hi⟩, fun hi =>
    ⟨get28 p i.toNat, ?_, get28_toNat p hi⟩⟩, fun hi => ?_, fun hi => ?_⟩
  · exact answers_of_guard rfl hu (Nat.not_lt.mpr hi)
  · exact answers_of_guard rfl hu (Nat.not_lt.mpr hi)
  · exact faults_of_guard rfl hu hi
  · exact faults_of_guard rfl hu hi

/-- The `n` low-order 7-bit groups of a value written from byte `i` on, the lowest first: `PK.SET14` and `PK.SET28` are
this with 2 and 4 groups. -/
def setGroups {w : Nat} (p : Packet) (i : Nat) (v : BitVec w) : Nat → Packet
  | 0 => p
  | n + 1 => set7 (setGroups p i v n) (i + n) (v.extractLsb' (7 * n) 7)

theorem set14_eq_setGroups (p : Packet) (i : Nat) (v : BitVec 14) : set14 p i v = setGroups p i v 2 := rfl

theorem set28_eq_setGroups (p : Packet) (i : Nat) (v : BitVec 28) : set28 p i v = setGroups p i v 4 := rfl

theorem group_setWidth {w : Nat} (v : BitVec w) (n : Nat) :
    (v.extractLsb' (7 * n) 7).setWidth 8 = BitVec.ofNat 8 (v.toNat / 2 ^ (7 * n) % 128) := by
  apply BitVec.eq_of_toNat_eq
  simp [Nat.shiftRight_eq_div_pow]

/-- Each group stands in its own byte with bit 7 clear, and the bytes outside the field stay. -/
theorem getByte_setGroups {w : Nat} (p : Packet) (i : Nat) (v : BitVec w) (n j : Nat) (h : i + n ≤ 16) :
    getByte (setGroups p i v n) j =
      if i ≤ j ∧ j < i + n then BitVec.ofNat 8 (v.toNat / 2 ^ (7 * (j - i)) % 128) else getByte p j := by
  induction n with
  | zero => rw [if_neg (by omega)]; rfl
  | succ n ih =>
    rw [setGroups, set7, getByte_setByte _ _ _ _ (by omega), ih (by omega)]
    by_cases hj : j = i + n
    · subst hj
      rw [if_pos rfl, if_pos (by omega), Nat.add_sub_cancel_left, group_setWidth]
    · rw [if_neg hj]
      have hrange : (i ≤ j ∧ j < i + (n + 1)) ↔ (i ≤ j ∧ j < i + n) := by omega
      simp only [hrange]

theorem packetBits_setGroups {w : Nat} (p : Packet) {i n j : Nat} (v : BitVec w) (h : i + n ≤ 16) (hj : j < 16) :
    (packetBits (setGroups p i v n)).extractLsb' (120 - 8 * j) 8 =
      if i ≤ j ∧ j < i + n then BitVec.ofNat 8 (v.toNat / 2 ^ (7 * (j - i)) % 128)
      else (packetBits p).extractLsb' (120 - 8 * j) 8 := by
  rw [← getByte_eq _ j hj, ← getByte_eq _ j hj, getByte_setGroups p i v n j h]

/-- Settles O24: both commands write the groups of their value one after the other. -/
theorem pkCompositeWrites : Obligations.PkCompositeWrites := by
  intro p i v x s hu
  refine ⟨rfl, rfl, fun hi => ⟨set14 p i.toNat v, ?_, fun j hj => ?_⟩, fun hi =>
    ⟨set28 p i.toNat x, ?_, fun j hj => ?_⟩, fun hi => ?_, fun hi => ?_⟩
  · exact answers_of_guard rfl hu (Nat.not_lt.mpr hi)
  · rw [set14_eq_setGroups]
    exact packetBits_setGroups p v (by omega) hj
  · exact answers_of_guard rfl hu (Nat.not_lt.mpr hi)
  · rw [set28_eq_setGroups]
    exact packetBits_setGroups p x (by omega) hj
  · exact faults_of_guard rfl hu hi
  · exact faults_of_guard rfl hu hi

/-! ### Nibbles (R145, R146) -/

/-- Settles O25: a nibble of a packet is four bits of its four words, and a nibble written leaves the others. -/
theorem pkNibbles : Obligations.PkNibbles := by
  intro p k v s hu
  rw [← getNibble_eq p _ k.isLt]
  refine ⟨rfl, rfl, answers_of rfl hu, setNibble p k.toNat v, answers_of rfl hu, fun j hj => ?_⟩
  rw [← getNibble_eq _ j hj, ← getNibble_eq _ j hj, getNibble_setNibble p _ j v k.isLt]

/-! ### Families (R147, R149) -/

theorem isFamilyCode_iff : ∀ f : BitVec 4,
    isFamilyCode f = true ↔ f.toNat ∈ [0x0, 0x1, 0x2, 0x3, 0x4, 0x5, 0xD, 0xF] := by decide

/-- R149: four codes restrict the status; every other code admits any. -/
theorem statusOk_iff (f : BitVec 4) (status : Byte) : statusOk f status = true ↔
    (f.toNat = 0x1 → status.toNat ∈ [0xF1, 0xF2, 0xF3, 0xF6, 0xF8, 0xFA, 0xFB, 0xFC, 0xFE, 0xFF]) ∧
    (f.toNat = 0x2 → 0x80 ≤ status.toNat ∧ status.toNat ≤ 0xEF) ∧
    (f.toNat = 0x3 → status.toNat / 16 ≤ 3 ∧ status.toNat % 16 ≤ 6) ∧
    (f.toNat = 0x5 → status.toNat / 16 ≤ 3 ∧ 1 ≤ status.toNat % 16 ∧ status.toNat % 16 ≤ 14) := by
  unfold statusOk
  split
  case h_5 hsystem hcv1 hsysex7 hsysex8 =>
    exact iff_of_true rfl
      ⟨fun h => (hsystem h).elim, fun h => (hcv1 h).elim, fun h => (hsysex7 h).elim, fun h => (hsysex8 h).elim⟩
  all_goals next hf => simp [hf, and_assoc]

theorem isFamily_iff (p : Packet) (f : BitVec 4) :
    isFamily p f = true ↔ (tagOf p).toNat = f.toNat ∧ statusOk f (statusOf p) = true := by
  rw [isFamily, Bool.and_eq_true, beq_iff_eq, BitVec.toNat_inj]

theorem exec_pkIsfam (p : Packet) (f : BitVec 4) (s : State) : exec (.pkIsfam p f) s =
    answer .pk (if isFamilyCode f then .ok (.bit (isFamily p f)) else .refuse .noSuchFamily) s := rfl

/-- Settles O26: the code is looked up first; a family is a tag and a range of statuses. -/
theorem pkFamilyMembership : Obligations.PkFamilyMembership := by
  intro p f s hu
  simp only [← isFamilyCode_iff]
  refine ⟨rfl, fun hcode => ⟨isFamily p f, answers_of ?_ hu, ?_⟩, fun hcode => refuses_of ?_ hu⟩
  · rw [exec_pkIsfam, if_pos hcode]
  · rw [isFamily_iff, statusOk_iff, tagOf_toNat, statusOf_toNat]
  · rw [exec_pkIsfam, if_neg hcode]

end Sys2Proof.Machine
end

section
/-! Documented preconditions and faults (40_packet.md R148): a command whose operands meet them keeps the fault record. -/

namespace Sys2Proof.Machine

/-- A reply that is no fault. -/
def NoFault {α : Type} (r : Reply α) : Prop := ∀ f, r ≠ .fault f

/-- A step from `s` that leaves the fault record as it is. -/
def KeepsFaultRec (s : State) (x : Step) : Prop := ∀ t, x = .next t → t.faultRec = s.faultRec

theorem NoFault.ok {α : Type} (a : α) : NoFault (.ok a) := fun _ h => nomatch h

theorem NoFault.refuse {α : Type} (r : RefuseReason) : NoFault (α := α) (.refuse r) := fun _ h => nomatch h

theorem NoFault.ite {α : Type} {c : Prop} [Decidable c] {a b : Reply α} (ha : c → NoFault a)
    (hb : ¬ c → NoFault b) : NoFault (if c then a else b) := by
  split
  · exact ha ‹c›
  · exact hb ‹¬ c›

section

variable {s : State}

theorem KeepsFaultRec.next {t : State} (h : t.faultRec = s.faultRec) : KeepsFaultRec s (.next t) := by
  rintro _ ⟨⟩
  exact h

theorem KeepsFaultRec.atUnit {u : UnitKind} {body : Step} (h : KeepsFaultRec s body) :
    KeepsFaultRec s (atUnit u s body) := by
  unfold Machine.atUnit
  split
  · exact h
  · exact .next rfl

theorem KeepsFaultRec.answer {u : UnitKind} {r : Reply Result} (h : NoFault r) : KeepsFaultRec s (answer u r s) := by
  refine .atUnit ?_
  cases r with
  | ok v => exact .next rfl
  | fault f => exact absurd rfl (h f)
  | refuse f => exact .next rfl

theorem KeepsFaultRec.commit {σ : Type} {put : σ → State} {r : Reply (σ × List Event)}
    (hput : ∀ u, (put u).faultRec = s.faultRec) (h : NoFault r) : KeepsFaultRec s (commit put s r) := by
  cases r with
  | ok x => exact .next (hput x.1)
  | fault f => exact absurd rfl (h f)
  | refuse f => exact .next rfl

theorem KeepsFaultRec.onBp {f : Params → Bp → Reply (Bp × List Event)} (h : ∀ c u, NoFault (f c u)) :
    KeepsFaultRec s (onBp f s) := .atUnit (.commit (fun _ => rfl) (h _ _))

theorem KeepsFaultRec.onFc7 {f : Params → Fc7 → Reply (Fc7 × List Event)} (h : ∀ c u, NoFault (f c u)) :
    KeepsFaultRec s (onFc7 f s) := .atUnit (.commit (fun _ => rfl) (h _ _))

theorem KeepsFaultRec.onFc8 {f : Params → Fc8 → Reply (Fc8 × List Event)} (h : ∀ c u, NoFault (f c u)) :
    KeepsFaultRec s (onFc8 f s) := .atUnit (.commit (fun _ => rfl) (h _ _))

theorem KeepsFaultRec.onJr {f : Params → Jr → Reply (Jr × List Event)} (h : ∀ c u, NoFault (f c u)) :
    KeepsFaultRec s (onJr f s) := .atUnit (.commit (fun _ => rfl) (h _ _))

theorem KeepsFaultRec.jrSched (a : Nat) (ts : BitVec 16) : KeepsFaultRec s (exec (.jrSched a ts) s) := by
  refine .atUnit ?_
  simp only
  split
  · exact .next rfl
  · split <;> exact .next rfl

end

theorem wellFormed_wordCount_iff (n : BitVec 3) : WellFormed.wordCount n = true ↔ 1 ≤ n.toNat ∧ n.toNat ≤ 4 := by
  simp [WellFormed.wordCount]

theorem wellFormed_fieldStart_iff (span : Nat) (i : BitVec 4) : WellFormed.fieldStart span i = true ↔ i.toNat + span ≤ 16 :=
  decide_eq_true_iff

/-- Only the commands of R323's catalogue can fault, and each one's precondition excludes its fault. -/
theorem exec_keepsFaultRec {i : Instr} (hw : i.wellFormed = true) (s : State) : KeepsFaultRec s (exec i s) := by
  cases i
  case pkMake n a0 a1 a2 a3 =>
    have hn := (wellFormed_wordCount_iff n).mp hw
    exact .answer (.ite (fun h => by omega) fun _ => .ok _)
  case pkGroup p =>
    have htag : tagOf p ≠ 0 := bne_iff_ne.mp hw
    exact .answer (.ite (fun h => absurd h htag) fun _ => .ok _)
  case pkGet14 p i | pkSet14 p i v =>
    have hi := (wellFormed_fieldStart_iff 2 i).mp hw
    exact .answer (.ite (fun h => by omega) fun _ => .ok _)
  case pkGet28 p i | pkSet28 p i v =>
    have hi := (wellFormed_fieldStart_iff 4 i).mp hw
    exact .answer (.ite (fun h => by omega) fun _ => .ok _)
  case pkIsfam p f => exact .answer (.ite (fun _ => .ok _) fun _ => .refuse _)
  case fr7Frag mid l g | fr8Frag mid l g sid =>
    have hid : canonicalId mid = true := hw
    exact .answer (.ite (fun _ => .ok _) fun h => absurd hid h)
  case bpFeed | byteData | byteCv80 | byteCvC0 | byteCvE0 | byteSxStart | byteScF1 | byteScF2 | byteScF3 | byteUndefF4 |
      byteUndefF5 | byteTune | byteSxEnd | byteRtF8 | byteRtResF9 | byteRtFA | byteRtFB | byteRtFC | byteRtResFD |
      byteRtFE | byteRtFF => exact .onBp fun _ _ => bp_feed_no_fault _ _ _
  case bpReset => exact .onBp fun _ _ => .ok _
  case bpCfg g e m => exact .onBp fun _ u => bp_configure_no_fault g e m u
  case fc7Feed | t3Complete | t3Start | t3Cont | t3End => exact .onFc7 fun _ _ => fc7_feed_no_fault _ _ _
  case fc7Reset => exact .onFc7 fun _ _ => .ok _
  case fc8Feed | fc8Reset | fc8Cfg | t5Complete | t5Start | t5Cont | t5End => exact .onFc8 fun _ _ => .ok _
  case jrSync t ts => exact .onJr fun c u => jr_sync_no_fault c t ts u
  case jrSched t ts => exact .jrSched t ts
  case jrReset => exact .onJr fun _ _ => .ok _
  -- every other command answers whatever its operands are
  all_goals exact .answer (.ok _)

/-- Settles O16: a command that keeps the fault record raises no fault. -/
theorem wellFormedNeverFaults : Obligations.WellFormedNeverFaults :=
  fun _ s t hw hexec => exec_keepsFaultRec hw s t hexec

end Sys2Proof.Machine
end

section
/-! SC, the value scalers (41_scalers.md R170 to R180). -/

namespace Sys2Proof.Machine

/-! ### The repeated bits of `UP` (R170), as a sum -/

/-- The `rb`-bit value `low` with its top bit just below bit `k`, cut off at bit 0. -/
def copyBelow (low rb k : Nat) : Nat := low * 2 ^ k / 2 ^ rb

/-- `n` copies of `low` one after another, the first just below bit `k`. -/
def copiesBelow (low rb : Nat) : Nat → Nat → Nat
  | 0, _ => 0
  | n + 1, k => copyBelow low rb k + copiesBelow low rb n (k - rb)

theorem copyBelow_of_le {low rb k : Nat} (h : rb ≤ k) : copyBelow low rb k = low * 2 ^ (k - rb) := by
  rw [copyBelow, Nat.mul_div_assoc _ (Nat.pow_dvd_pow 2 h), Nat.pow_div h two_pos]

/-- A turn of the loop leaves the place of its next copy vacant. -/
theorem dvd_add_copyBelow {r k : Nat} (hr : 2 ^ k ∣ r) (low rb : Nat) : 2 ^ (k - rb) ∣ r + copyBelow low rb k := by
  rcases le_total rb k with h | h
  · rw [copyBelow_of_le h]
    exact Nat.dvd_add ((Nat.pow_dvd_pow 2 (Nat.sub_le k rb)).trans hr) (Nat.dvd_mul_left _ low)
  · rw [Nat.sub_eq_zero_of_le h]
    exact Nat.one_dvd _

section

variable {low rb : Nat} (hlow : low < 2 ^ rb)
include hlow

theorem copyBelow_lt (k : Nat) : copyBelow low rb k < 2 ^ k :=
  Nat.div_lt_of_lt_mul (Nat.mul_lt_mul_of_pos_right hlow (Nat.two_pow_pos k))

theorem copyBelow_shiftRight (k : Nat) : copyBelow low rb k >>> rb = copyBelow low rb (k - rb) := by
  rw [Nat.shiftRight_eq_div_pow]
  rcases le_total rb k with h | h
  · rw [copyBelow_of_le h, copyBelow]
  · have hcut : copyBelow low rb k < 2 ^ rb := (copyBelow_lt hlow k).trans_le (Nat.pow_le_pow_right two_pos h)
    rw [Nat.sub_eq_zero_of_le h, Nat.div_eq_of_lt hcut]
    exact (Nat.lt_one_iff.mp (copyBelow_lt hlow 0)).symm

theorem copiesBelow_lt (n k : Nat) : copiesBelow low rb n k < 2 ^ k := by
  induction n generalizing k with
  | zero => exact Nat.two_pow_pos k
  | succ n ih =>
    have hrest : copiesBelow low rb n (k - rb) < 2 ^ (k - rb) := ih (k - rb)
    rw [copiesBelow]
    rcases le_total rb k with h | h
    · calc copyBelow low rb k + copiesBelow low rb n (k - rb)
        _ < (low + 1) * 2 ^ (k - rb) := by rw [copyBelow_of_le h, Nat.succ_mul]; omega
        _ ≤ 2 ^ rb * 2 ^ (k - rb) := Nat.mul_le_mul_right _ hlow
        _ = 2 ^ k := by rw [← pow_add, Nat.add_sub_cancel' h]
    · rw [Nat.sub_eq_zero_of_le h] at hrest ⊢
      have hcopy : copyBelow low rb k < 2 ^ k := copyBelow_lt hlow k
      omega

end

/-! ### `UP` and `DN` -/

/-- A turn of the loop; with nothing left to merge it changes nothing. -/
theorem upLoop_succ (n r rv rb : Nat) : upLoop (n + 1) r rv rb = upLoop n (r ||| rv) (rv >>> rb) rb := by
  rw [upLoop]
  split
  case isTrue h => cases n <;> simp [upLoop, h]
  case isFalse => rfl

/-- The copies fall on vacant bits of `r`, so merging them in adds them. -/
theorem upLoop_eq {low rb : Nat} (hlow : low < 2 ^ rb) (n : Nat) {r k : Nat} (hr : 2 ^ k ∣ r) :
    upLoop n r (copyBelow low rb k) rb = r + copiesBelow low rb n k := by
  induction n generalizing r k with
  | zero => rfl
  | succ n ih =>
    have hmerge : r ||| copyBelow low rb k = r + copyBelow low rb k := by
      obtain ⟨q, rfl⟩ := hr
      exact (Nat.two_pow_add_eq_or_of_lt (copyBelow_lt hlow k) q).symm
    rw [upLoop_succ, hmerge, copyBelow_shiftRight hlow, ih (dvd_add_copyBelow hr low rb), copiesBelow, Nat.add_assoc]

/-- Either way `UP` shifts its repeat value, its top bit comes to stand just below the value's. -/
theorem repeatValue_eq (low rb sh : Nat) :
    (if rb < sh then low <<< (sh - rb) else low >>> (rb - sh)) = copyBelow low rb sh := by
  split
  case isTrue h => rw [copyBelow_of_le h.le, Nat.shiftLeft_eq]
  case isFalse h =>
    rw [Nat.shiftRight_eq_div_pow, copyBelow, ← Nat.mul_div_mul_right _ _ (Nat.two_pow_pos sh), ← pow_add,
      Nat.sub_add_cancel (Nat.le_of_not_lt h)]

/-- R170 in arithmetic: the value shifted up and, above the centre, copies of its low bits below it. -/
theorem up_eq (v S D : Nat) : up v S D = v * 2 ^ (D - S) +
    if v ≤ 2 ^ (S - 1) then 0 else copiesBelow (v % 2 ^ (S - 1)) (S - 1) D (D - S) := by
  have hlow : v % 2 ^ (S - 1) < 2 ^ (S - 1) := Nat.mod_lt _ (Nat.two_pow_pos _)
  simp only [up, repeatValue_eq, Nat.shiftLeft_eq v]
  split
  case isTrue => rfl
  case isFalse => exact upLoop_eq hlow D (Nat.dvd_mul_left _ v)

/-- R180, round trip: the repeated bits stay below the value. -/
theorem dn_up (v S D : Nat) : dn (up v S D) D S = v := by
  have hrepeat : (if v ≤ 2 ^ (S - 1) then 0 else copiesBelow (v % 2 ^ (S - 1)) (S - 1) D (D - S)) < 2 ^ (D - S) := by
    split
    case isTrue => exact Nat.two_pow_pos _
    case isFalse => exact copiesBelow_lt (Nat.mod_lt _ (Nat.two_pow_pos _)) D _
  rw [dn, up_eq, Nat.shiftRight_eq_div_pow, Nat.mul_comm, Nat.mul_add_div (Nat.two_pow_pos _), Nat.div_eq_of_lt hrepeat,
    Nat.add_zero]

theorem dn_mono {w y : Nat} (h : w ≤ y) (D S : Nat) : dn w D S ≤ dn y D S := by
  simpa only [dn, Nat.shiftRight_eq_div_pow] using Nat.div_le_div_right h

/-- R180, strict increase: `DN` is monotone and undoes `UP`. -/
theorem up_lt_up {v x : Nat} (h : v < x) (S D : Nat) : up v S D < up x S D := by
  by_contra hle
  have hback : dn (up x S D) D S ≤ dn (up v S D) D S := dn_mono (Nat.le_of_not_lt hle) D S
  rw [dn_up, dn_up] at hback
  omega

theorem up_lt {v S D : Nat} (hv : v < 2 ^ S) (h : S ≤ D) : up v S D < 2 ^ D := by
  have hback : up v S D / 2 ^ (D - S) = v := by rw [← Nat.shiftRight_eq_div_pow]; exact dn_up v S D
  rw [← hback, Nat.div_lt_iff_lt_mul (Nat.two_pow_pos _), ← pow_add, Nat.add_sub_cancel' h] at hv
  exact hv

/-! ### The scalers on bit vectors -/

section

variable {S D : Nat}

/-- What an up-scaler answers. -/
def upBits (D : Nat) (v : BitVec S) : BitVec D := BitVec.ofNat D (up v.toNat S D)

/-- What a down-scaler answers: the top `S` bits (R171), as `w.extractLsb' (D - S) S` is defined. -/
def dnBits (S : Nat) (w : BitVec D) : BitVec S := BitVec.ofNat S (dn w.toNat D S)

theorem upBits_toNat (h : S ≤ D) (v : BitVec S) : (upBits D v).toNat = up v.toNat S D := by
  rw [upBits, BitVec.toNat_ofNat, Nat.mod_eq_of_lt (up_lt v.isLt h)]

theorem dnBits_upBits (h : S ≤ D) (v : BitVec S) : dnBits S (upBits D v) = v := by
  rw [dnBits, upBits_toNat h, dn_up, BitVec.ofNat_toNat, BitVec.setWidth_eq]

theorem upBits_lt_upBits (h : S ≤ D) {v x : BitVec S} (hvx : v < x) : upBits D v < upBits D x := by
  rw [BitVec.lt_def, upBits_toNat h, upBits_toNat h]
  exact up_lt_up hvx S D

end

/-! ### The commands -/

/-- The copies of the low six bits of a 7-bit value, at each width (R172, R173). -/
theorem copiesBelow_six {low : Nat} (h : low < 2 ^ 6) :
    copiesBelow low 6 16 9 = low * 2 ^ 3 + low / 2 ^ 3 ∧
    copiesBelow low 6 32 25 = low * 2 ^ 19 + low * 2 ^ 13 + low * 2 ^ 7 + low * 2 + low / 2 ^ 5 := by
  simp only [copiesBelow, copyBelow, Nat.reduceSub, Nat.reducePow]
  omega

/-- The copies of the low thirteen bits of a 14-bit value, at each width (R174, R175). -/
theorem copiesBelow_thirteen {low : Nat} (h : low < 2 ^ 13) :
    copiesBelow low 13 16 2 = low / 2 ^ 11 ∧ copiesBelow low 13 32 18 = low * 2 ^ 5 + low / 2 ^ 8 := by
  simp only [copiesBelow, copyBelow, Nat.reduceSub, Nat.reducePow]
  omega

section

variable {i : Instr} {s : State}

theorem scalers_answer (hu : s.target.unit = .sc) :
    (∀ v, Answers (.scUp7To16 v) s (.bits16 (upBits 16 v))) ∧ (∀ v, Answers (.scUp7To32 v) s (.bits32 (upBits 32 v))) ∧
    (∀ v, Answers (.scUp14To16 v) s (.bits16 (upBits 16 v))) ∧ (∀ v, Answers (.scUp14To32 v) s (.bits32 (upBits 32 v))) ∧
    (∀ w, Answers (.scDn16To7 w) s (.bits7 (dnBits 7 w))) ∧ (∀ w, Answers (.scDn32To7 w) s (.bits7 (dnBits 7 w))) ∧
    (∀ w, Answers (.scDn16To14 w) s (.bits14 (dnBits 14 w))) ∧ ∀ w, Answers (.scDn32To14 w) s (.bits14 (dnBits 14 w)) := by
  refine ⟨?_, ?_, ?_, ?_, ?_, ?_, ?_, ?_⟩ <;> exact fun _ => answers_of rfl hu

theorem Answers.unique {a b : Result} (ha : Answers i s a) (hb : Answers i s b) : a = b := by
  have hexec := ha.symm.trans hb
  simpa using hexec

variable {S D : Nat} {upI : BitVec S → Instr} {dnI : BitVec D → Instr} {upR : BitVec D → Result} {dnR : BitVec S → Result}

/-- A command that answers its operand scaled up answers R170's sum. -/
theorem answers_of_copiesBelow {v : BitVec S} {c : Nat} (hup : Answers i s (upR (upBits D v)))
    (hc : copiesBelow (v.toNat % 2 ^ (S - 1)) (S - 1) D (D - S) = c) :
    Answers i s (upR (BitVec.ofNat D (v.toNat * 2 ^ (D - S) + if v.toNat ≤ 2 ^ (S - 1) then 0 else c))) := by
  rwa [upBits, up_eq, hc] at hup

/-- A command that answers its operand scaled up is undone by one that answers its operand scaled down. -/
theorem roundTrip_of_scalers (h : S ≤ D) (hup : ∀ v, Answers (upI v) s (upR (upBits D v)))
    (hdn : ∀ w, Answers (dnI w) s (dnR (dnBits S w))) (v : BitVec S) :
    ∃ w, Answers (upI v) s (upR w) ∧ Answers (dnI w) s (dnR v) := by
  refine ⟨upBits D v, hup v, ?_⟩
  have hback := hdn (upBits D v)
  rwa [dnBits_upBits h] at hback

/-- A command that answers its operand scaled up keeps the order. -/
theorem lt_of_scalers (h : S ≤ D) (hinj : ∀ a b, upR a = upR b → a = b)
    (hup : ∀ v, Answers (upI v) s (upR (upBits D v))) (v x : BitVec S) (w y : BitVec D) (hvx : v < x)
    (hw : Answers (upI v) s (upR w)) (hy : Answers (upI x) s (upR y)) : w < y := by
  rw [hinj _ _ (hw.unique (hup v)), hinj _ _ (hy.unique (hup x))]
  exact upBits_lt_upBits h hvx

end

/-! ### The obligations -/

/-- Settles O29: `UP` as a sum, with the copies written out at each width. -/
theorem scalersUp : Obligations.ScalersUp := by
  intro v x s hu
  obtain ⟨up7To16, up7To32, up14To16, up14To32, -⟩ := scalers_answer hu
  obtain ⟨copies7To16, copies7To32⟩ := copiesBelow_six (Nat.mod_lt v.toNat (Nat.two_pow_pos 6))
  obtain ⟨copies14To16, copies14To32⟩ := copiesBelow_thirteen (Nat.mod_lt x.toNat (Nat.two_pow_pos 13))
  refine ⟨rfl, rfl, rfl, rfl, ?_, ?_, ?_, ?_⟩
  · exact answers_of_copiesBelow (upR := .bits16) (up7To16 v) copies7To16
  · exact answers_of_copiesBelow (upR := .bits32) (up7To32 v) copies7To32
  · exact answers_of_copiesBelow (upR := .bits16) (up14To16 x) copies14To16
  · exact answers_of_copiesBelow (upR := .bits32) (up14To32 x) copies14To32

/-- Settles O30: `DN` is a shift, and the low bits of what it leaves are the top bits of the operand. -/
theorem scalersDown : Obligations.ScalersDown := by
  intro w x s hu
  obtain ⟨-, -, -, -, dn16To7, dn32To7, dn16To14, dn32To14⟩ := scalers_answer hu
  exact ⟨rfl, rfl, rfl, rfl, dn16To7 w, dn32To7 x, dn16To14 w, dn32To14 x⟩

/-- Settles O31: three values at each width by evaluation, the round trip and the order from `UP` and `DN`. -/
theorem scalerLaws : Obligations.ScalerLaws := by
  intro s hu
  obtain ⟨up7To16, up7To32, up14To16, up14To32, dn16To7, dn32To7, dn16To14, dn32To14⟩ := scalers_answer hu
  refine ⟨⟨up7To16 0, up7To16 0x7F, up7To16 0x40, up7To32 0, up7To32 0x7F, up7To32 0x40⟩,
    ⟨up14To16 0, up14To16 0x3FFF, up14To16 0x2000, up14To32 0, up14To32 0x3FFF, up14To32 0x2000⟩,
    fun v => ⟨?_, ?_⟩, fun v => ⟨?_, ?_⟩, ?_, ?_, ?_, ?_⟩
  · exact roundTrip_of_scalers (by decide) up7To16 dn16To7 v
  · exact roundTrip_of_scalers (by decide) up7To32 dn32To7 v
  · exact roundTrip_of_scalers (by decide) up14To16 dn16To14 v
  · exact roundTrip_of_scalers (by decide) up14To32 dn32To14 v
  · exact lt_of_scalers (by decide) (fun _ _ => Result.bits16.inj) up7To16
  · exact lt_of_scalers (by decide) (fun _ _ => Result.bits32.inj) up7To32
  · exact lt_of_scalers (by decide) (fun _ _ => Result.bits16.inj) up14To16
  · exact lt_of_scalers (by decide) (fun _ _ => Result.bits32.inj) up14To32

end Sys2Proof.Machine
end

section
/-! The byte-stream parser (42_byte_stream_parser.md R192 to R206): what each operation answers, one lemma per branch, then
what a byte instruction does to the addressed parser. -/

namespace Sys2Proof.Machine

/-! ### `BP.FEED` by the class of the byte (R192) -/

section

variable {cap : Option Nat} {u : Bp} {b : Byte}

theorem Bp.feed_realtime (hb : 0xF8 ≤ b.toNat) : Bp.feed cap b u = .ok (u.realtime b) := if_pos hb

theorem Bp.feed_outside (hsx : u.sx = false) (hb : b.toNat < 0xF8) : Bp.feed cap b u = .ok (u.plain b) := by
  rw [Bp.feed, if_neg (Nat.not_le.mpr hb), if_neg (by simp [hsx])]

theorem Bp.feed_sysexData (hsx : u.sx = true) (hb : b.toNat < 0x80) : Bp.feed cap b u = u.sxAppend cap b := by
  rw [Bp.feed, if_neg (by omega), if_pos hsx, if_pos hb]

theorem Bp.feed_sysexEnd (hsx : u.sx = true) : Bp.feed cap 0xF7 u = .ok u.sxFinish := by
  rw [Bp.feed, if_neg (by decide), if_pos hsx, if_neg (by decide), if_pos rfl]

/-- Any other status byte cancels the payload and is then read as a plain byte (R194, R205). -/
theorem Bp.feed_sysexCancel (hsx : u.sx = true) (hlow : 0x80 ≤ b.toNat) (hhigh : b.toNat < 0xF8) (hend : b ≠ 0xF7) :
    Bp.feed cap b u = .ok (u.dropSysex.plain b) := by
  rw [Bp.feed, if_neg (Nat.not_le.mpr hhigh), if_pos hsx, if_neg (Nat.not_lt.mpr hlow), if_neg hend]

theorem Bp.feed_data (hsx : u.sx = false) (hb : b.toNat < 0x80) : Bp.feed cap b u = .ok (u.data b) := by
  rw [Bp.feed_outside hsx (by omega), Bp.plain, if_pos hb]

theorem Bp.feed_cvStatus (hsx : u.sx = false) (hlow : 0x80 ≤ b.toNat) (hhigh : b.toNat ≤ 0xEF) :
    Bp.feed cap b u = .ok (u.cvStatus b, []) := by
  rw [Bp.feed_outside hsx (by omega), Bp.plain, if_neg (Nat.not_lt.mpr hlow), if_pos hhigh]

/-- Real-time bytes touch no field (R193). -/
theorem Bp.realtime_eq (u : Bp) (b : Byte) :
    u.realtime b = (u, if b = 0xF9 ∨ b = 0xFD then [] else u.emit (.packet (t1 u.cfgGroup b 0 0))) := by
  unfold Bp.realtime
  split <;> rfl

end

/-! ### Data bytes outside system exclusive (R195, R201) -/

section

variable {u : Bp} {q b : Byte}

/-- A message of status `q` with its two data bytes goes out, and nothing is pending any more (R201). -/
def Bp.deliver (u : Bp) (q d1 d2 : Byte) : Bp × List Event :=
  (u.dropMessage, u.emit (.packet (if q.toNat ≤ 0xEF then t2 u.cfgGroup q d1 d2 else t1 u.cfgGroup q d1 d2)))

/-- The first of two data bytes stored (R195). -/
def Bp.holdFirst (u : Bp) (b : Byte) : Bp := { u with d0 := b, cur := 1, need := 1 }

theorem Bp.data_ignored (hst : u.st = none) (hrs : u.rs = none) : u.data b = (u, []) := by
  rw [Bp.data, hst, hrs]

theorem Bp.data_pending (hst : u.st = some q) : u.data b = u.dataInto q b := by
  rw [Bp.data, hst]

/-- Under running status a byte begins a message of the same status. -/
theorem Bp.data_running (hst : u.st = none) (hrs : u.rs = some q) : u.data b = (u.beginMessage q).dataInto q b := by
  rw [Bp.data, hst, hrs]

theorem Bp.dataInto_first (hneed : u.need = 2) (hcur : u.cur = 0) :
    u.dataInto q b = (u.holdFirst b, []) := by
  simp [Bp.dataInto, Bp.store, Bp.holdFirst, hneed, hcur]

theorem Bp.dataInto_last (hneed : u.need = 1) : u.dataInto q b = (u.store b).complete q := by
  simp [Bp.dataInto, Bp.store, hneed]

theorem Bp.dataInto_second (hq : dataCount q = 2) (hneed : u.need = 1) (hcur : u.cur = 1) :
    u.dataInto q b = u.deliver q u.d0 b := by
  rw [Bp.dataInto_last hneed]
  simp [Bp.complete, Bp.deliver, Bp.store, Bp.dropMessage, Bp.emit, hq, hcur]

theorem Bp.dataInto_only (hq : dataCount q = 1) (hneed : u.need = 1) (hcur : u.cur = 0) :
    u.dataInto q b = u.deliver q b 0 := by
  rw [Bp.dataInto_last hneed]
  simp [Bp.complete, Bp.deliver, Bp.store, Bp.dropMessage, Bp.emit, hq, hcur]

end

/-! ### Bytes of a system-exclusive payload (R202, R203) -/

section

variable {cap : Option Nat} {u : Bp} {b : Byte}

theorem Bp.sxAppend_held (hmode : u.cfgMode = .packets) (hroom : u.fb.length ≠ 6) :
    u.sxAppend cap b = .ok ({ u with fb := u.fb ++ [b] }, []) := by
  simp only [Bp.sxAppend, hmode, if_neg hroom]

theorem Bp.sxAppend_full (hmode : u.cfgMode = .packets) (hfull : u.fb.length = 6) :
    u.sxAppend cap b = .ok ({ u with ffirst := false, fb := [b] },
      u.emit (.packet (t3 u.cfgGroup (if u.ffirst then .start else .cont) u.fb))) := by
  simp only [Bp.sxAppend, hmode, if_pos hfull]

theorem Bp.sxAppend_routed {a : Accum} (hmode : u.cfgMode = .payload) (hr : route7 cap (b.setWidth 7) u.acc = .ok a) :
    u.sxAppend cap b = .ok ({ u with acc := a }, []) := by
  simp only [Bp.sxAppend, hmode, hr]

theorem Bp.sxAppend_refused {r : RefuseReason} (hmode : u.cfgMode = .payload)
    (hr : route7 cap (b.setWidth 7) u.acc = .refuse r) : u.sxAppend cap b = .refuse r := by
  simp only [Bp.sxAppend, hmode, hr]

/-- A data byte at each of the three positions of an id, as numbers: the discriminant, and the bits it sets (R240). -/
theorem idBits_of_data : ∀ b : Byte, b.toNat < 0x80 → (b.setWidth 7 = 0 ↔ b = 0) ∧
    (b.setWidth 7).setWidth 24 <<< 16 = BitVec.ofNat 24 (b.toNat * 2 ^ 16) ∧
    (b.setWidth 7).setWidth 24 <<< 8 = BitVec.ofNat 24 (b.toNat * 2 ^ 8) ∧
    (b.setWidth 7).setWidth 24 = BitVec.ofNat 24 b.toNat ∧ (b.setWidth 7).setWidth 8 = b := by
  decide

theorem route7_first {a : Accum} (hb : b.toNat < 0x80) (hmc : a.mc = 0) :
    route7 cap (b.setWidth 7) a = .ok ⟨if b = 0 then 1 else 3, BitVec.ofNat 24 (b.toNat * 2 ^ 16), a.buf⟩ := by
  obtain ⟨hzero, hbits, -⟩ := idBits_of_data b hb
  rw [route7_id (by omega)]
  simp only [Accum.idByte, if_pos hmc, hbits, hzero]

theorem route7_second {a : Accum} (hb : b.toNat < 0x80) (hmc : a.mc = 1) :
    route7 cap (b.setWidth 7) a = .ok ⟨2, a.mid ||| BitVec.ofNat 24 (b.toNat * 2 ^ 8), a.buf⟩ := by
  obtain ⟨-, -, hbits, -⟩ := idBits_of_data b hb
  rw [route7_id (by omega)]
  simp only [Accum.idByte, if_neg (show ¬ a.mc = 0 by omega), if_pos hmc, hbits]

theorem route7_third {a : Accum} (hb : b.toNat < 0x80) (hmc : a.mc = 2) :
    route7 cap (b.setWidth 7) a = .ok ⟨3, a.mid ||| BitVec.ofNat 24 b.toNat, a.buf⟩ := by
  obtain ⟨-, -, -, hbits, -⟩ := idBits_of_data b hb
  rw [route7_id (by omega)]
  simp only [Accum.idByte, if_neg (show ¬ a.mc = 0 by omega), if_neg (show ¬ a.mc = 1 by omega), hbits]

theorem overCap_eq_false {n : Nat} (h : ∀ c, cap = some c → n < c) : overCap cap n = false := by
  cases cap with
  | none => rfl
  | some c => exact decide_eq_false (Nat.not_le.mpr (h c rfl))

theorem route7_append {a : Accum} (hb : b.toNat < 0x80) (hmc : a.mc = 3) (hroom : ∀ c, cap = some c → a.buf.length < c) :
    route7 cap (b.setWidth 7) a = .ok ⟨3, a.mid, a.buf ++ [b]⟩ := by
  obtain ⟨-, -, -, -, hbyte⟩ := idBits_of_data b hb
  rw [route7, if_neg (by omega), overCap_eq_false hroom, hbyte, ← hmc]
  rfl

theorem route7_overflow {a : Accum} {z : BitVec 7} {c : Nat} (hmc : a.mc = 3) (hfull : c ≤ a.buf.length) :
    route7 (some c) z a = .refuse .bufOverflow := by
  have hover : overCap (some c) a.buf.length = true := decide_eq_true hfull
  rw [route7, if_neg (by omega), if_pos hover]

end

/-! ### Byte instructions (log 8) -/

section

variable {i : Instr} {b : Byte} {s : State} (hbyte : byteOf i = some b) (hunit : s.target.unit = .bp)
include hbyte hunit

/-- A byte instruction does to the addressed parser what `BP.FEED` of its byte does. -/
theorem bpBecomes_of_feed {u : Bp} {ev : List Event}
    (hf : Bp.feed s.params.bpBufCap b (s.bpAt s.target.idx) = .ok (u, ev)) : BpBecomes i s u ev :=
  bpBecomes_of (exec_of_byteOf hbyte s) hunit hf

theorem bpRefuses_of_feed {r : RefuseReason} (hf : Bp.feed s.params.bpBufCap b (s.bpAt s.target.idx) = .refuse r) :
    Refuses i s r :=
  bpRefuses_of (exec_of_byteOf hbyte s) hunit hf

/-- A byte that extends the accumulator during system exclusive. -/
theorem bpBecomes_of_route7 {a : Accum} (hsx : (s.bpAt s.target.idx).sx = true)
    (hmode : (s.bpAt s.target.idx).cfgMode = .payload) (hb : b.toNat < 0x80)
    (hr : route7 s.params.bpBufCap (b.setWidth 7) (s.bpAt s.target.idx).acc = .ok a) :
    BpBecomes i s { s.bpAt s.target.idx with acc := a } [] :=
  bpBecomes_of_feed hbyte hunit ((Bp.feed_sysexData hsx hb).trans (Bp.sxAppend_routed hmode hr))

end

/-! ### The obligations -/

/-- Settles O34: the six situations are the branches of `DATA(b)` and of what it does with the message. -/
theorem bpDataByte : Obligations.BpDataByte := by
  intro i b s hbyte hunit hsx hb u done cleared
  have becomes {x : Bp × List Event} (hx : u.data b = x) : BpBecomes i s x.1 x.2 :=
    bpBecomes_of_feed hbyte hunit ((Bp.feed_data hsx hb).trans (congrArg Reply.ok hx))
  refine ⟨fun hst hrs => ?_, fun q hst _ hneed hcur => ?_, fun q hst hq hneed hcur => ?_,
    fun q hst hq hneed hcur => ?_, fun q hst hrs hq => ?_, fun q hst hrs hq => ?_⟩
  · exact becomes (Bp.data_ignored hst hrs)
  · exact becomes ((Bp.data_pending hst).trans (Bp.dataInto_first hneed hcur))
  · exact becomes ((Bp.data_pending hst).trans (Bp.dataInto_second hq hneed hcur))
  · exact becomes ((Bp.data_pending hst).trans (Bp.dataInto_only hq hneed hcur))
  · exact becomes ((Bp.data_running hst hrs).trans (Bp.dataInto_first hq rfl))
  · exact becomes ((Bp.data_running hst hrs).trans (Bp.dataInto_only hq hq rfl))

/-- Settles O37: the byte is routed by the id counter, and refused when it would be appended past the capacity. -/
theorem bpAppendPayload : Obligations.BpAppendPayload := by
  intro i b s hbyte hunit hb u hsx hmode
  refine ⟨fun hmc => ?_, fun hmc => ?_, fun hmc => ?_, fun hmc hroom => ?_, fun hmc c hcap hfull => ?_⟩
  · exact bpBecomes_of_route7 hbyte hunit hsx hmode hb (route7_first hb hmc)
  · exact bpBecomes_of_route7 hbyte hunit hsx hmode hb (route7_second hb hmc)
  · exact bpBecomes_of_route7 hbyte hunit hsx hmode hb (route7_third hb hmc)
  · exact bpBecomes_of_route7 hbyte hunit hsx hmode hb (route7_append hb hmc hroom)
  · refine bpRefuses_of_feed hbyte hunit ((Bp.feed_sysexData hsx hb).trans (Bp.sxAppend_refused hmode ?_))
    exact hcap ▸ route7_overflow hmc hfull

/-- Settles O39: inside system exclusive the byte is read by the cancelled parser, and so it is once that parser is in
place. -/
theorem bpSysexCancel : Obligations.BpSysexCancel := by
  intro i b s hbyte hunit hlow hhigh hend u cancelled hsx
  have hcancelled : (s.setBp s.target.idx cancelled).bpAt s.target.idx = u.dropSysex := State.setBp_bpAt_same _ _ _
  have hread : Bp.feed s.params.bpBufCap b u.dropSysex = .ok (u.dropSysex.plain b) := Bp.feed_outside rfl hhigh
  refine ⟨(u.dropSysex.plain b).1, (u.dropSysex.plain b).2, ?_, ?_⟩
  · exact bpBecomes_of_feed hbyte hunit (Bp.feed_sysexCancel hsx hlow hhigh hend)
  · exact bpBecomes_of_feed (s := s.setBp s.target.idx cancelled) hbyte hunit (hcancelled.symm ▸ hread)

/-- Settles O32: a real-time byte is answered before the parser's state is looked at. -/
theorem bpRealTimeByte : Obligations.BpRealTimeByte := by
  intro i b s hbyte hunit hb u
  exact bpBecomes_of_feed hbyte hunit ((Bp.feed_realtime hb).trans (congrArg Reply.ok (u.realtime_eq b)))

/-- The data counts of channel-voice statuses (R191). -/
theorem dataCount_of_cv : ∀ b : Byte, 0x80 ≤ b.toNat → b.toNat ≤ 0xEF →
    dataCount b = if 0xC0 ≤ b.toNat ∧ b.toNat ≤ 0xDF then 1 else 2 := by
  decide

/-- Settles O33: `CV_STATUS(b)`, with the data count of R191. -/
theorem bpChannelVoiceStatus : Obligations.BpChannelVoiceStatus := by
  intro i b s hbyte hunit hsx hlow hhigh
  rw [← dataCount_of_cv b hlow hhigh]
  exact bpBecomes_of_feed hbyte hunit (Bp.feed_cvStatus hsx hlow hhigh)

/-- Settles O35: each status byte outside system exclusive is read by its own branch of `BP.FEED`. -/
theorem bpSystemStatus : Obligations.BpSystemStatus := by
  intro i b s hbyte hunit hsx u cleared
  have becomes (hb : b.toNat < 0xF8) {x : Bp × List Event} (hx : u.plain b = x) : BpBecomes i s x.1 x.2 :=
    bpBecomes_of_feed hbyte hunit ((Bp.feed_outside hsx hb).trans (congrArg Reply.ok hx))
  refine ⟨?_, ?_, ?_, ?_, ?_⟩
  · rintro (rfl | rfl)
    · exact becomes (by decide) (x := (u.scStatus 0xF1, [])) rfl
    · exact becomes (by decide) (x := (u.scStatus 0xF3, [])) rfl
  · rintro rfl
    exact becomes (by decide) (x := (u.scStatus 0xF2, [])) rfl
  · rintro rfl
    exact becomes (by decide) (x := u.tune) rfl
  · rintro (rfl | rfl | rfl) <;> exact becomes (by decide) (x := (u.undefStatus, [])) rfl
  · rintro rfl
    exact becomes (by decide) (x := (u.sxStart, [])) rfl

/-- Settles O36: the byte is held, after the six held before it have gone out. -/
theorem bpAppendPackets : Obligations.BpAppendPackets := by
  intro i b s hbyte hunit hb u hsx hmode
  refine ⟨fun hroom => ?_, fun hfull => ?_⟩
  · exact bpBecomes_of_feed hbyte hunit ((Bp.feed_sysexData hsx hb).trans (Bp.sxAppend_held hmode hroom))
  · exact bpBecomes_of_feed hbyte hunit ((Bp.feed_sysexData hsx hb).trans (Bp.sxAppend_full hmode hfull))

/-- What goes out at the end of system exclusive, by mode (R204). -/
theorem Bp.sxFinish_eq (u : Bp) : u.sxFinish = (u.dropSysex, u.emit
    (if u.cfgMode = .packets then .packet (t3 u.cfgGroup (if u.ffirst then .complete else .end_) u.fb)
      else .payload u.acc.mid u.acc.buf none)) := by
  cases hmode : u.cfgMode <;> simp [Bp.sxFinish, hmode]

/-- Settles O38: `SX_FINISH()` in both modes. -/
theorem bpSysexFinish : Obligations.BpSysexFinish := by
  intro i s hbyte hunit u hsx
  exact bpBecomes_of_feed hbyte hunit ((Bp.feed_sysexEnd hsx).trans (congrArg Reply.ok u.sxFinish_eq))

/-! ### Configuration and reset (R206, R207) -/

theorem modeOf_eq : ∀ m : BitVec 1, modeOf m = if m = 1 then .payload else .packets := by decide

/-- Settles O41: `BP.CFG` is refused exactly when it would change the mode inside system exclusive, and `FC8.CFG` never. -/
theorem configurationCommands : Obligations.ConfigurationCommands := by
  refine ⟨fun g e m s hunit => ⟨rfl, fun hchange => ?_, fun hallowed => ?_⟩, fun m s hunit => ⟨rfl, ?_⟩⟩
  · refine bpRefuses_of (f := fun _ v => v.configure g e m) rfl hunit (if_pos ?_)
    exact modeOf_eq m ▸ hchange
  · rw [← modeOf_eq m] at hallowed ⊢
    refine bpBecomes_of (f := fun _ v => v.configure g e m) rfl hunit (if_neg ?_)
    rintro ⟨hsx, hne⟩
    exact hallowed.elim (fun hout => Bool.false_ne_true (hout.symm.trans hsx)) hne
  · exact fc8Becomes_of (f := fun _ u => .ok ({ u with max := m }, [])) rfl hunit rfl

/-- Settles O42: each reset command writes its unit's power-on value over all but the configuration. -/
theorem resetCommands : Obligations.ResetCommands := by
  refine ⟨fun s hunit => ⟨rfl, ?_⟩, fun s hunit => ⟨rfl, ?_⟩, fun s hunit => ⟨rfl, ?_⟩, fun s hunit => ⟨rfl, ?_⟩⟩
  · exact bpBecomes_of (f := fun _ u => .ok (u.cleared, [])) rfl hunit rfl
  · exact fc7Becomes_of (f := fun _ _ => .ok (Fc7.powerOn, [])) rfl hunit rfl
  · exact fc8Becomes_of (f := fun _ u => .ok (u.cleared, [])) rfl hunit rfl
  · exact jrBecomes_of (f := fun c _ => .ok (Jr.powerOn c, [])) rfl hunit rfl

end Sys2Proof.Machine
end

section
/-! Byte streams (30_encoding.md R108; 42_byte_stream_parser.md R209, R210): what a stream does to one parser, what that makes
of the machine, and the two laws of streams. -/

namespace Sys2Proof.Machine

/-! ### A stream and one parser -/

/-- What bytes fed to a parser come to: the parser, the events in delivery order, and whether one was refused. -/
structure Fed where
  parser : Bp
  events : List Event
  refused : Bool

/-- More bytes fed to the parser that the first ones leave. -/
def Fed.andThen (x : Fed) (f : Bp → Fed) : Fed :=
  ⟨(f x.parser).parser, x.events ++ (f x.parser).events, x.refused || (f x.parser).refused⟩

/-- What a reply makes of the parser `u` that was fed: only OK writes it (60_exceptions.md R322, R324). -/
def Fed.ofReply (u : Bp) : Reply (Bp × List Event) → Fed
  | .ok (u', ev) => ⟨u', ev, false⟩
  | .fault _ => ⟨u, [], false⟩
  | .refuse _ => ⟨u, [], true⟩

/-- What a stream does to the parser `u`, each byte refused or not. -/
def Bp.feedAll (cap : Option Nat) : Bytes → Bp → Fed
  | [], u => ⟨u, [], false⟩
  | b :: rest, u => (Fed.ofReply u (Bp.feed cap b u)).andThen (Bp.feedAll cap rest)

section

variable {cap : Option Nat} {u : Bp} {b : Byte} {x : Bp × List Event}

theorem Fed.andThen_assoc (x : Fed) (f g : Bp → Fed) :
    (x.andThen f).andThen g = x.andThen fun v => (f v).andThen g := by
  simp only [Fed.andThen, List.append_assoc, Bool.or_assoc]

theorem Bp.feedAll_append (xs ys : Bytes) (u : Bp) :
    Bp.feedAll cap (xs ++ ys) u = (Bp.feedAll cap xs u).andThen (Bp.feedAll cap ys) := by
  induction xs generalizing u with
  | nil => rfl
  | cons b rest ih =>
    have hrest : Bp.feedAll cap (rest ++ ys) = fun v => (Bp.feedAll cap rest v).andThen (Bp.feedAll cap ys) := funext ih
    rw [List.cons_append, Bp.feedAll, Bp.feedAll, Fed.andThen_assoc, hrest]

theorem Bp.feedAll_cons_ok (hf : Bp.feed cap b u = .ok x) (rest : Bytes) :
    Bp.feedAll cap (b :: rest) u =
      ⟨(Bp.feedAll cap rest x.1).parser, x.2 ++ (Bp.feedAll cap rest x.1).events, (Bp.feedAll cap rest x.1).refused⟩ := by
  rw [Bp.feedAll, hf]
  simp only [Fed.ofReply, Fed.andThen, Bool.false_or]

theorem Bp.feedAll_cons_silent {u' : Bp} (hf : Bp.feed cap b u = .ok (u', [])) (rest : Bytes) :
    Bp.feedAll cap (b :: rest) u = Bp.feedAll cap rest u' :=
  Bp.feedAll_cons_ok hf rest

theorem Bp.feedAll_singleton (hf : Bp.feed cap b u = .ok x) : Bp.feedAll cap [b] u = ⟨x.1, x.2, false⟩ := by
  rw [Bp.feedAll_cons_ok hf, Bp.feedAll, List.append_nil]

end

/-! ### A stream and the machine -/

/-- The machine after the addressed parser has been fed: it holds what the bytes came to, and nothing else is changed. -/
structure FedTo (s : State) (x : Fed) (t : State) : Prop where
  others : OthersUnchanged s t
  parser : t.bpAt s.target.idx = x.parser
  events : eventsOf t.responses = eventsOf s.responses ++ x.events
  refused : t.refusedMark = (s.refusedMark || x.refused)

section

variable {s t t' : State} {x y : Fed}

theorem OthersUnchanged.trans (h : OthersUnchanged s t) (h' : OthersUnchanged t t') : OthersUnchanged s t' where
  params := h'.params.trans h.params
  inbox := h'.inbox.trans h.inbox
  target := h'.target.trans h.target
  bp n hn := (h'.bp n (h.target ▸ hn)).trans (h.bp n hn)
  fc7 n hn := (h'.fc7 n (h.target ▸ hn)).trans (h.fc7 n hn)
  fc8 n hn := (h'.fc8 n (h.target ▸ hn)).trans (h.fc8 n hn)
  jr n hn := (h'.jr n (h.target ▸ hn)).trans (h.jr n hn)

theorem eventsOf_append (l m : List Response) : eventsOf (l ++ m) = eventsOf l ++ eventsOf m := List.flatMap_append

theorem FedTo.andThen {f : Bp → Fed} (h : FedTo s x t) (h' : FedTo t (f (t.bpAt t.target.idx)) t') :
    FedTo s (x.andThen f) t' := by
  obtain ⟨hothers, hparser, hevents, hrefused⟩ := h
  obtain ⟨hothers', hparser', hevents', hrefused'⟩ := h'
  rw [hothers.target, hparser] at hparser' hevents' hrefused'
  exact {
    others := hothers.trans hothers'
    parser := hparser'
    events := by rw [hevents', hevents, List.append_assoc]; rfl
    refused := by rw [hrefused', hrefused, Bool.or_assoc]; rfl }

/-- `BP.FEED` at a parser runs, refused or not. -/
theorem exec_bpFeed_fedTo (b : Byte) (hunit : s.target.unit = .bp) : ∃ t, exec (.bpFeed b) s = .next t ∧
    FedTo s (Fed.ofReply (s.bpAt s.target.idx) (Bp.feed s.params.bpBufCap b (s.bpAt s.target.idx))) t := by
  have hexec := exec_of_byteOf (i := .bpFeed b) rfl s
  cases hf : Bp.feed s.params.bpBufCap b (s.bpAt s.target.idx) with
  | ok a =>
    have hnext := hexec.trans (onBp_ok (ev := a.2) hunit hf)
    exact ⟨_, hnext, (exec_effect hnext).othersUnchanged, State.setBp_bpAt_same _ _ _,
      by rw [State.finish_responses, eventsOf_append]; simp [eventsOf, Fed.ofReply], (Bool.or_false _).symm⟩
  | fault r => exact absurd hf (bp_feed_no_fault _ _ _ r)
  | refuse r =>
    have hnext := hexec.trans (onBp_refuse hunit hf)
    exact ⟨_, hnext, (exec_effect hnext).othersUnchanged, rfl,
      by rw [State.refuse_responses, eventsOf_append]; simp [eventsOf, Fed.ofReply], (Bool.or_true _).symm⟩

theorem runAll_cons {i : Instr} (h : exec i s = .next t) (rest : List Instr) : runAll (i :: rest) s = runAll rest t := by
  rw [runAll, h]

/-- A stream runs to its end and comes to what it does to the addressed parser. -/
theorem runAll_feedN_fedTo (l : Bytes) (s : State) (hunit : s.target.unit = .bp) :
    ∃ t, runAll (feedN l) s = .next t ∧ FedTo s (Bp.feedAll s.params.bpBufCap l (s.bpAt s.target.idx)) t := by
  induction l generalizing s with
  | nil => exact ⟨s, rfl, .refl s, rfl, (List.append_nil _).symm, (Bool.or_false _).symm⟩
  | cons b rest ih =>
    obtain ⟨m, hm, hfed⟩ := exec_bpFeed_fedTo b hunit
    obtain ⟨t, ht, hrest⟩ := ih m (hfed.others.target ▸ hunit)
    rw [hfed.others.params] at hrest
    exact ⟨t, (runAll_cons hm _).trans ht, hfed.andThen hrest⟩

/-- Two streams that leave the parser the same leave the same units. -/
theorem FedTo.sameUnits (hunit : s.target.unit = .bp) (h : FedTo s x t) (h' : FedTo s y t')
    (hparser : x.parser = y.parser) : SameUnits t t' := by
  have hne {k : UnitKind} (hk : .bp ≠ k) (n : Nat) : s.target ≠ ⟨k, n⟩ := by
    intro htarget
    exact hk (hunit.symm.trans (congrArg Target.unit htarget))
  refine ⟨fun n => ?_, fun n => ?_, fun n => ?_, fun n => ?_⟩
  · by_cases hn : s.target = ⟨.bp, n⟩
    · obtain rfl : s.target.idx = n := congrArg Target.idx hn
      rw [h.parser, h'.parser, hparser]
    · rw [h.others.bp n hn, h'.others.bp n hn]
  · rw [h.others.fc7 n (hne (by decide) n), h'.others.fc7 n (hne (by decide) n)]
  · rw [h.others.fc8 n (hne (by decide) n), h'.others.fc8 n (hne (by decide) n)]
  · rw [h.others.jr n (hne (by decide) n), h'.others.jr n (hne (by decide) n)]

end

/-! ### The configuration is kept -/

section

variable (u : Bp) (b : Byte)

/-- The group and the emission enable, all that a real-time byte reads. -/
def Bp.output (u : Bp) : BitVec 4 × Bool := (u.cfgGroup, u.cfgEmit)

theorem Bp.dataInto_output (q : Byte) : (u.dataInto q b).1.output = u.output := by
  unfold Bp.dataInto
  simp only
  split <;> rfl

theorem Bp.data_output : (u.data b).1.output = u.output := by
  unfold Bp.data
  split
  · exact u.dataInto_output b _
  · split
    · exact (u.beginMessage _).dataInto_output b _
    · rfl

theorem Bp.plain_output : (u.plain b).1.output = u.output := by
  unfold Bp.plain
  split
  · exact u.data_output b
  repeat' split
  all_goals rfl

theorem Bp.sxAppend_output (cap : Option Nat) : (Fed.ofReply u (u.sxAppend cap b)).parser.output = u.output := by
  unfold Bp.sxAppend
  split
  · split <;> rfl
  · split <;> rfl

theorem Bp.feed_output (cap : Option Nat) : (Fed.ofReply u (Bp.feed cap b u)).parser.output = u.output := by
  unfold Bp.feed
  split
  · rw [u.realtime_eq b]; rfl
  split
  · split
    · exact u.sxAppend_output b cap
    split
    · rfl
    · exact u.dropSysex.plain_output b
  · exact u.plain_output b

/-- A stream keeps the group and the emission enable; only `BP.CFG` writes them (R206). -/
theorem Bp.feedAll_output (cap : Option Nat) (l : Bytes) : (Bp.feedAll cap l u).parser.output = u.output := by
  induction l generalizing u with
  | nil => rfl
  | cons b rest ih => exact (ih _).trans (u.feed_output b cap)

end

/-! ### Real-time bytes in a stream (R193, R210) -/

section

variable {cap : Option Nat} {u v : Bp} {r : Byte}

/-- The events of a real-time byte are those of any parser with the same group and emission enable. -/
theorem Bp.realtime_events (r : Byte) (h : v.output = u.output) : (v.realtime r).2 =
    if r ≠ 0xF9 ∧ r ≠ 0xFD ∧ u.cfgEmit = true then [.packet (t1 u.cfgGroup r 0 0)] else [] := by
  obtain ⟨hgroup, hemit⟩ := Prod.mk.inj h
  rw [Bp.realtime_eq, Bp.emit, hgroup, hemit]
  by_cases hreserved : r = 0xF9 ∨ r = 0xFD
  · rw [if_pos hreserved, if_neg fun ⟨h9, hD, _⟩ => hreserved.elim h9 hD]
  · obtain ⟨h9, hD⟩ := not_or.mp hreserved
    rw [if_neg hreserved]
    simp only [ne_eq, h9, hD, not_false_eq_true, true_and]

/-- A real-time byte puts its events in front and hands the parser on unchanged. -/
theorem Bp.feedAll_realtime (hr : 0xF8 ≤ r.toNat) (l : Bytes) (u : Bp) : Bp.feedAll cap (r :: l) u =
    ⟨(Bp.feedAll cap l u).parser, (u.realtime r).2 ++ (Bp.feedAll cap l u).events, (Bp.feedAll cap l u).refused⟩ := by
  have hsame : (u.realtime r).1 = u := congrArg Prod.fst (u.realtime_eq r)
  rw [Bp.feedAll_cons_ok (Bp.feed_realtime hr), hsame]

end

/-- Settles O44: up to the cut both streams are the same, and after it they differ by the real-time byte's events. -/
theorem realTimeTransparency : Obligations.RealTimeTransparency := by
  intro s xs ys r hunit hr u
  obtain ⟨m, hm, hcutAt⟩ := runAll_feedN_fedTo xs s hunit
  obtain ⟨t, ht, hshort⟩ := runAll_feedN_fedTo (xs ++ ys) s hunit
  obtain ⟨t', ht', hlong⟩ := runAll_feedN_fedTo (xs ++ r :: ys) s hunit
  rw [Bp.feedAll_append] at hshort hlong
  set v := (Bp.feedAll s.params.bpBufCap xs u).parser
  have hcut := Bp.feedAll_realtime (cap := s.params.bpBufCap) hr ys v
  refine ⟨m, t, t', (Bp.feedAll s.params.bpBufCap ys v).events, hm, ht, ht', ?_, ?_, ?_, ?_⟩
  · exact hshort.sameUnits hunit hlong (congrArg Fed.parser hcut).symm
  · rw [hshort.refused, hlong.refused, Fed.andThen, Fed.andThen, hcut]
  · rw [hshort.events, hcutAt.events, List.append_assoc]
    rfl
  · rw [hlong.events, hcutAt.events, Fed.andThen, hcut, Bp.realtime_events r (u.feedAll_output _ xs)]
    simp only [List.append_assoc]

/-! ### Running status in a stream (R195, R196, R209) -/

section

variable {cap : Option Nat} {u : Bp} {q a b c : Byte}

/-- A parser with nothing pending and running status `q`: what a complete channel-voice message leaves. -/
def Bp.armed (u : Bp) (q : Byte) : Bp := { u.dropMessage with rs := some q }

theorem Bp.deliver_cv (hhigh : q.toNat ≤ 0xEF) (d1 d2 : Byte) :
    u.deliver q d1 d2 = (u.dropMessage, u.emit (.packet (t2 u.cfgGroup q d1 d2))) := by
  rw [Bp.deliver, if_pos hhigh]

/-- Restating the running status as a status byte changes nothing: the data byte begins the same message. -/
theorem Bp.data_cvStatus (hst : u.st = none) (hrs : u.rs = some q) : (u.cvStatus q).data c = u.data c := by
  have hbegin : u.cvStatus q = u.beginMessage q := by
    rw [Bp.cvStatus, ← hrs]
    rfl
  rw [Bp.data_running hst hrs, ← hbegin]
  exact Bp.data_pending rfl

variable (hsx : u.sx = false) (hlow : 0x80 ≤ q.toNat) (hhigh : q.toNat ≤ 0xEF)
include hsx hlow hhigh

theorem Bp.feedAll_cvStatus (hst : u.st = none) (hrs : u.rs = some q) (hc : c.toNat < 0x80) (rest : Bytes) :
    Bp.feedAll cap (q :: c :: rest) u = Bp.feedAll cap (c :: rest) u := by
  have hdata : Bp.feedAll cap (c :: rest) (u.cvStatus q) = Bp.feedAll cap (c :: rest) u := by
    rw [Bp.feedAll_cons_ok (Bp.feed_data (u := u.cvStatus q) hsx hc), Bp.feedAll_cons_ok (Bp.feed_data hsx hc),
      Bp.data_cvStatus hst hrs]
  exact (Bp.feedAll_cons_silent (Bp.feed_cvStatus hsx hlow hhigh) _).trans hdata

/-- A channel-voice message with one data byte. -/
theorem Bp.feedAll_message1 (hq : dataCount q = 1) (ha : a.toNat < 0x80) :
    Bp.feedAll cap [q, a] u = ⟨u.armed q, u.emit (.packet (t2 u.cfgGroup q a 0)), false⟩ := by
  have hlast : (u.cvStatus q).data a = (u.armed q, u.emit (.packet (t2 u.cfgGroup q a 0))) :=
    calc (u.cvStatus q).data a
      _ = (u.cvStatus q).dataInto q a := Bp.data_pending rfl
      _ = (u.cvStatus q).deliver q a 0 := Bp.dataInto_only hq hq rfl
      _ = _ := Bp.deliver_cv hhigh a 0
  calc Bp.feedAll cap [q, a] u
    _ = Bp.feedAll cap [a] (u.cvStatus q) := Bp.feedAll_cons_silent (Bp.feed_cvStatus hsx hlow hhigh) _
    _ = _ := Bp.feedAll_singleton ((Bp.feed_data (u := u.cvStatus q) hsx ha).trans (congrArg Reply.ok hlast))

/-- A channel-voice message with two data bytes. -/
theorem Bp.feedAll_message2 (hq : dataCount q = 2) (ha : a.toNat < 0x80) (hb : b.toNat < 0x80) :
    Bp.feedAll cap [q, a, b] u = ⟨u.armed q, u.emit (.packet (t2 u.cfgGroup q a b)), false⟩ := by
  have hfirst : (u.cvStatus q).data a = ((u.cvStatus q).holdFirst a, []) :=
    (Bp.data_pending rfl).trans (Bp.dataInto_first hq rfl)
  have hlast : ((u.cvStatus q).holdFirst a).data b = (u.armed q, u.emit (.packet (t2 u.cfgGroup q a b))) :=
    calc ((u.cvStatus q).holdFirst a).data b
      _ = ((u.cvStatus q).holdFirst a).dataInto q b := Bp.data_pending rfl
      _ = ((u.cvStatus q).holdFirst a).deliver q a b := Bp.dataInto_second hq rfl rfl
      _ = _ := Bp.deliver_cv hhigh a b
  calc Bp.feedAll cap [q, a, b] u
    _ = Bp.feedAll cap [a, b] (u.cvStatus q) := Bp.feedAll_cons_silent (Bp.feed_cvStatus hsx hlow hhigh) _
    _ = Bp.feedAll cap [b] ((u.cvStatus q).holdFirst a) :=
      Bp.feedAll_cons_silent ((Bp.feed_data (u := u.cvStatus q) hsx ha).trans (congrArg Reply.ok hfirst)) _
    _ = _ := Bp.feedAll_singleton
      ((Bp.feed_data (u := (u.cvStatus q).holdFirst a) hsx hb).trans (congrArg Reply.ok hlast))

/-- Two messages of one status come to the same whether the second one states it or not. -/
theorem Bp.feedAll_runningStatus {first rest : Bytes} {e e' : Event} (hc : c.toNat < 0x80)
    (hfirst : Bp.feedAll cap first u = ⟨u.armed q, u.emit e, false⟩)
    (hsecond : Bp.feedAll cap (q :: c :: rest) (u.armed q) = ⟨u.armed q, u.emit e', false⟩) :
    Bp.feedAll cap (first ++ c :: rest) u = ⟨u.armed q, if u.cfgEmit then [e, e'] else [], false⟩ ∧
    Bp.feedAll cap (first ++ q :: c :: rest) u = ⟨u.armed q, if u.cfgEmit then [e, e'] else [], false⟩ := by
  have hevents : u.emit e ++ u.emit e' = if u.cfgEmit then [e, e'] else [] := by
    unfold Bp.emit
    split <;> rfl
  have hrestated := Bp.feedAll_cvStatus (cap := cap) (u := u.armed q) hsx hlow hhigh rfl rfl hc rest
  rw [Bp.feedAll_append, Bp.feedAll_append, hfirst, ← hevents]
  simp only [Fed.andThen, ← hrestated, hsecond, Bool.or_false, and_self]

end

/-- Streams that come to the same for the parser run to the end with the same units and events. -/
theorem runAll_of_feedAll_eq {s : State} (hunit : s.target.unit = .bp) {l l' : Bytes} {v : Bp} {ev : List Event}
    (h : Bp.feedAll s.params.bpBufCap l (s.bpAt s.target.idx) = ⟨v, ev, false⟩ ∧
      Bp.feedAll s.params.bpBufCap l' (s.bpAt s.target.idx) = ⟨v, ev, false⟩) :
    ∃ t t', runAll (feedN l) s = .next t ∧ runAll (feedN l') s = .next t' ∧ SameUnits t t' ∧
      eventsOf t.responses = eventsOf s.responses ++ ev ∧ eventsOf t'.responses = eventsOf s.responses ++ ev := by
  obtain ⟨hl, hl'⟩ := h
  obtain ⟨t, ht, hfed⟩ := runAll_feedN_fedTo l s hunit
  obtain ⟨t', ht', hfed'⟩ := runAll_feedN_fedTo l' s hunit
  rw [hl] at hfed
  rw [hl'] at hfed'
  exact ⟨t, t', ht, ht', hfed.sameUnits hunit hfed' rfl, hfed.events, hfed'.events⟩

/-- Settles O43: after the first message the parser has its status as running status, and restating it changes nothing. -/
theorem runningStatusEquivalence : Obligations.RunningStatusEquivalence := by
  intro s q a b c e hunit hsx hlow hhigh ha hb hc he u same
  refine ⟨fun hq => ?_, fun hq => ?_⟩
  · have hfirst := Bp.feedAll_message2 (cap := s.params.bpBufCap) hsx hlow hhigh hq ha hb
    have hsecond := Bp.feedAll_message2 (cap := s.params.bpBufCap) (u := u.armed q) hsx hlow hhigh hq hc he
    exact runAll_of_feedAll_eq hunit (Bp.feedAll_runningStatus hsx hlow hhigh hc hfirst hsecond)
  · have hfirst := Bp.feedAll_message1 (cap := s.params.bpBufCap) hsx hlow hhigh hq ha
    have hsecond := Bp.feedAll_message1 (cap := s.params.bpBufCap) (u := u.armed q) hsx hlow hhigh hq hc
    exact runAll_of_feedAll_eq hunit (Bp.feedAll_runningStatus hsx hlow hhigh hc hfirst hsecond)

end Sys2Proof.Machine
end

section
/-! Payloads (43_fragment_collectors.md R240 to R245, R252, R253): the forms of a manufacturer id, and what routing the bytes
of a payload makes of an empty accumulator. -/

namespace Sys2Proof.Machine

/-! ### The three id bytes as numbers -/

theorem shortId_iff (mid : BitVec 24) : mid.extractLsb' 16 8 ≠ 0 ↔ 2 ^ 16 ≤ mid.toNat := by
  rw [ne_eq, ← BitVec.toNat_inj, BitVec.extractLsb'_toNat, Nat.shiftRight_eq_div_pow]
  have := mid.isLt
  simp only [BitVec.ofNat_eq_ofNat, BitVec.toNat_ofNat]
  omega

theorem shortIdTail_iff (mid : BitVec 24) : mid.extractLsb' 0 16 ≠ 0 ↔ mid.toNat % 2 ^ 16 ≠ 0 := by
  rw [ne_eq, ← BitVec.toNat_inj]
  simp only [BitVec.extractLsb'_toNat, BitVec.ofNat_eq_ofNat, BitVec.toNat_ofNat, Nat.shiftRight_zero, Nat.zero_mod]

theorem totalSize_eq (mid : BitVec 24) (l : Bytes) : totalSize mid l =
    if mid.toNat = 0 then l.length else if 2 ^ 16 ≤ mid.toNat then l.length + 1 else l.length + 3 := by
  have hzero : mid = 0 ↔ mid.toNat = 0 := BitVec.toNat_inj.symm
  simp only [totalSize, hzero, shortId_iff]

theorem canonicalId_iff (mid : BitVec 24) : canonicalId mid = true ↔
    ¬ (2 ^ 16 ≤ mid.toNat ∧ mid.toNat % 2 ^ 16 ≠ 0) ∧ ∀ b ∈ idBytes mid, b.toNat < 0x80 := by
  rw [← shortId_iff, ← shortIdTail_iff, canonicalId, Bool.and_eq_true, List.all_eq_true]
  simp only [Bool.not_eq_true', ← Bool.not_eq_true, Bool.and_eq_true, bne_iff_ne, decide_eq_true_eq]

/-- Settles O48: `is7Bit` and `is8Bit` are the two quantifiers over the bytes, whatever the id. -/
theorem sysexQueries : Obligations.SysexQueries := by
  intro mid l s hunit
  have h7 : is7Bit l = decide (∀ b ∈ l, b.toNat < 0x80) := by
    rw [Bool.eq_iff_iff]
    simp [is7Bit]
  have h8 : is8Bit l = decide (∃ b ∈ l, 0x80 ≤ b.toNat) := by
    rw [Bool.eq_iff_iff]
    simp [is8Bit]
  rw [← h7, ← h8, ← totalSize_eq]
  exact ⟨rfl, rfl, rfl, answers_of rfl hunit, answers_of rfl hunit, answers_of rfl hunit⟩

/-! ### Splitting off the manufacturer id -/

/-- The bytes up to the end of the id taken into the accumulator, and the bytes left over: what `ROUTE7` and `ROUTE8`
have in common (R240, R252). -/
def Accum.takeId : Bytes → Accum → Accum × Bytes
  | [], a => (a, [])
  | b :: rest, a => if a.mc < 3 then Accum.takeId rest (a.idByte (b.setWidth 7)) else (a, b :: rest)

theorem Accum.takeId_cons {a : Accum} (h : a.mc < 3) (b : Byte) (rest : Bytes) :
    Accum.takeId (b :: rest) a = Accum.takeId rest (a.idByte (b.setWidth 7)) := if_pos h

theorem Accum.takeId_done {a : Accum} (h : ¬ a.mc < 3) (l : Bytes) : Accum.takeId l a = (a, l) := by
  cases l with
  | nil => rfl
  | cons b rest => exact if_neg h

theorem route7All_takeId (cap : Option Nat) (l : Bytes) (a : Accum) :
    route7All cap l a = route7All cap (Accum.takeId l a).2 (Accum.takeId l a).1 := by
  induction l generalizing a with
  | nil => rfl
  | cons b rest ih =>
    by_cases h : a.mc < 3
    · rw [Accum.takeId_cons h, ← ih, route7All, route7_id h]
    · rw [Accum.takeId_done h]

theorem route8All_takeId (max : Option Nat) (l : Bytes) (a : Accum) (tr : Bool) :
    route8All max l (a, tr) = route8All max (Accum.takeId l a).2 ((Accum.takeId l a).1, tr) := by
  induction l generalizing a with
  | nil => rfl
  | cons b rest ih =>
    by_cases h : a.mc < 3
    · rw [Accum.takeId_cons h, ← ih, route8All, route8, if_pos h]
    · rw [Accum.takeId_done h]

/-- A byte at each of the three positions of an id. -/
theorem idBits_of_byte : ∀ b : Byte, (b.setWidth 7 = 0 ↔ b &&& 0x7F = 0) ∧
    (b.setWidth 7).setWidth 24 <<< 16 = (b &&& 0x7F) ++ 0#16 ∧
    (b.setWidth 7).setWidth 24 <<< 8 = 0#8 ++ (b &&& 0x7F) ++ 0#8 ∧
    (b.setWidth 7).setWidth 24 = 0#8 ++ 0#8 ++ (b &&& 0x7F) ∧ (b.setWidth 7).setWidth 8 = mask7 b := by
  decide

theorem Accum.idByte_zero {b : Byte} (hb : b &&& 0x7F = 0) : Accum.clear.idByte (b.setWidth 7) = ⟨1, 0, []⟩ := by
  obtain ⟨hzero, -⟩ := idBits_of_byte b
  simp only [Accum.idByte, Accum.clear, if_true, hzero.mpr hb]
  rfl

theorem Accum.idByte_short {b : Byte} (hb : b &&& 0x7F ≠ 0) :
    Accum.clear.idByte (b.setWidth 7) = ⟨3, (b &&& 0x7F) ++ 0#16, []⟩ := by
  obtain ⟨hzero, hbits, -⟩ := idBits_of_byte b
  simp only [Accum.idByte, Accum.clear, if_true, hzero, if_neg hb, hbits]

theorem Accum.idByte_second (b : Byte) :
    Accum.idByte ⟨1, 0, []⟩ (b.setWidth 7) = ⟨2, 0#8 ++ (b &&& 0x7F) ++ 0#8, []⟩ := by
  obtain ⟨-, -, hbits, -⟩ := idBits_of_byte b
  simp [Accum.idByte, hbits]

theorem Accum.idByte_third (x b : Byte) :
    Accum.idByte ⟨2, 0#8 ++ x ++ 0#8, []⟩ (b.setWidth 7) = ⟨3, 0#8 ++ x ++ (b &&& 0x7F), []⟩ := by
  obtain ⟨-, -, -, hbits, -⟩ := idBits_of_byte b
  have hor : 0#8 ++ x ++ 0#8 ||| 0#8 ++ 0#8 ++ (b &&& 0x7F) = 0#8 ++ x ++ (b &&& 0x7F) := by
    rw [BitVec.or_append, BitVec.or_append, BitVec.or_self, BitVec.or_zero, BitVec.zero_or]
  simp only [Accum.idByte, hbits, hor]
  rfl

theorem idSplit_short {x : Byte} (hx : x &&& 0x7F ≠ 0) (f : Byte → Byte) (l : Bytes) :
    idSplit f (x :: l) = ⟨3, (x &&& 0x7F) ++ 0#16, l.map f⟩ := by
  simp only [idSplit, if_neg hx]

theorem idSplit_extended {x : Byte} (hx : x &&& 0x7F = 0) (f : Byte → Byte) (y z : Byte) (l : Bytes) :
    idSplit f (x :: y :: z :: l) = ⟨3, 0#8 ++ (y &&& 0x7F) ++ (z &&& 0x7F), l.map f⟩ := by
  simp only [idSplit, if_pos hx]

/-- Up to the data, `takeId` is the split of the obligations. -/
theorem Accum.takeId_clear (l : Bytes) :
    Accum.takeId l Accum.clear = ({ idSplit id l with buf := [] }, (idSplit id l).buf) := by
  match l with
  | [] => rfl
  | x :: rest =>
    rw [Accum.takeId_cons (by decide)]
    by_cases hx : x &&& 0x7F = 0
    · rw [Accum.idByte_zero hx]
      match rest with
      | [] => simp only [idSplit, if_pos hx, Accum.takeId]
      | [y] => simp only [idSplit, if_pos hx, Accum.takeId, Nat.reduceLT, if_true, Accum.idByte_second]
      | y :: z :: rest =>
        rw [Accum.takeId_cons (by decide), Accum.idByte_second, Accum.takeId_cons (Nat.lt_succ_self 2), Accum.idByte_third,
          Accum.takeId_done (Nat.lt_irrefl 3), idSplit_extended hx, List.map_id]
    · rw [Accum.idByte_short hx, Accum.takeId_done (Nat.lt_irrefl 3), idSplit_short hx, List.map_id]

/-- What is done to the data bytes is the only use of `idSplit`'s argument. -/
theorem idSplit_eq (f : Byte → Byte) (l : Bytes) :
    idSplit f l = { idSplit id l with buf := (idSplit id l).buf.map f } := by
  match l with
  | [] => rfl
  | x :: rest =>
    by_cases hx : x &&& 0x7F = 0
    · match rest with
      | [] | [_] => simp only [idSplit, if_pos hx, List.map_nil]
      | _ :: _ :: _ => rw [idSplit_extended hx, idSplit_extended hx, List.map_id]
    · rw [idSplit_short hx, idSplit_short hx, List.map_id]

theorem idSplit_buf_length (f : Byte → Byte) (l : Bytes) : (idSplit f l).buf.length = (idSplit id l).buf.length := by
  rw [idSplit_eq, List.length_map]

/-- There are data bytes only after a complete id. -/
theorem idSplit_complete (l : Bytes) : ¬ (idSplit id l).mc < 3 ∨ (idSplit id l).buf = [] := by
  match l with
  | [] => exact .inr rfl
  | x :: rest =>
    by_cases hx : x &&& 0x7F = 0
    · match rest with
      | [] | [_] => exact .inr (by simp only [idSplit, if_pos hx])
      | _ :: _ :: _ => exact .inl (idSplit_extended hx id _ _ _ ▸ Nat.lt_irrefl 3)
    · exact .inl (idSplit_short hx id rest ▸ Nat.lt_irrefl 3)

/-! ### Routing data bytes -/

section

variable {cap : Option Nat} {c : Nat} {a : Accum} (hmc : ¬ a.mc < 3)
include hmc

theorem route7_room {b : Byte} (hroom : overCap cap a.buf.length = false) :
    route7 cap (b.setWidth 7) a = .ok { a with buf := a.buf ++ [mask7 b] } := by
  obtain ⟨-, -, -, -, hbyte⟩ := idBits_of_byte b
  rw [route7, if_neg hmc, hroom, hbyte]
  exact if_neg Bool.false_ne_true

theorem route7_full {b : BitVec 7} (hfull : overCap cap a.buf.length = true) :
    route7 cap b a = .refuse .bufOverflow := by
  rw [route7, if_neg hmc, if_pos hfull]

theorem route8_room {b : Byte} {tr : Bool} (hroom : overCap cap a.buf.length = false) :
    route8 cap b (a, tr) = ({ a with buf := a.buf ++ [b] }, tr) := by
  rw [route8, if_neg hmc, hroom]
  exact if_neg Bool.false_ne_true

theorem route8_full {b : Byte} {tr : Bool} (hfull : overCap cap a.buf.length = true) :
    route8 cap b (a, tr) = (a, true) := by
  rw [route8, if_neg hmc, if_pos hfull]

/-- Data bytes within the capacity are appended, masked. -/
theorem route7All_fits {l : Bytes} (hfits : WithinCap cap (a.buf.length + l.length)) :
    route7All cap l a = .ok { a with buf := a.buf ++ l.map mask7 } := by
  induction l generalizing a with
  | nil => simp [route7All]
  | cons b rest ih =>
    rw [List.length_cons] at hfits
    have hroom : overCap cap a.buf.length = false := overCap_eq_false fun c hc => by have := hfits c hc; omega
    have hrest : WithinCap cap ((a.buf ++ [mask7 b]).length + rest.length) := fun c hc => by
      have := hfits c hc
      rw [List.length_append, List.length_singleton]
      omega
    rw [route7All, route7_room hmc hroom]
    exact (ih (a := { a with buf := a.buf ++ [mask7 b] }) hmc hrest).trans (by simp)

/-- Data bytes past the capacity refuse the command. -/
theorem route7All_overflow {l : Bytes} (hle : a.buf.length ≤ c) (hover : c < a.buf.length + l.length) :
    route7All (some c) l a = .refuse .bufOverflow := by
  induction l generalizing a with
  | nil => exact absurd hover (Nat.not_lt.mpr hle)
  | cons b rest ih =>
    rw [List.length_cons] at hover
    rw [route7All]
    by_cases hfull : c ≤ a.buf.length
    · rw [route7_full (cap := some c) hmc (decide_eq_true hfull)]
    · have hlen : (a.buf ++ [mask7 b]).length = a.buf.length + 1 := List.length_append
      rw [route7_room (cap := some c) hmc (decide_eq_false hfull)]
      have hle' : (a.buf ++ [mask7 b]).length ≤ c := by omega
      have hover' : c < (a.buf ++ [mask7 b]).length + rest.length := by omega
      exact ih (a := { a with buf := a.buf ++ [mask7 b] }) hmc hle' hover'

theorem route8All_uncapped (l : Bytes) (tr : Bool) :
    route8All none l (a, tr) = ({ a with buf := a.buf ++ l }, tr) := by
  induction l generalizing a with
  | nil => simp [route8All]
  | cons b rest ih =>
    rw [route8All, route8_room hmc rfl]
    exact (ih (a := { a with buf := a.buf ++ [b] }) hmc).trans (by simp)

/-- Data bytes up to the cap are appended; one past it sets the mark. -/
theorem route8All_capped (l : Bytes) (tr : Bool) (hle : a.buf.length ≤ c) : route8All (some c) l (a, tr) =
    ({ a with buf := (a.buf ++ l).take c }, tr || decide (c < a.buf.length + l.length)) := by
  induction l generalizing a tr with
  | nil => simp [route8All, List.take_of_length_le hle, hle]
  | cons b rest ih =>
    rw [route8All]
    by_cases hfull : c ≤ a.buf.length
    · have hlen : a.buf.length = c := Nat.le_antisymm hle hfull
      rw [route8_full (cap := some c) hmc (decide_eq_true hfull), ih hmc true hle]
      simp [← hlen]
    · have hlen : (a.buf ++ [b]).length = a.buf.length + 1 := List.length_append
      have hle' : (a.buf ++ [b]).length ≤ c := by omega
      rw [route8_room (cap := some c) hmc (decide_eq_false hfull), ih (a := { a with buf := a.buf ++ [b] }) hmc tr hle',
        hlen]
      simp only [List.append_assoc, List.singleton_append, List.length_cons, Nat.add_assoc, Nat.add_comm 1]

end

/-! ### Routing a whole payload -/

theorem route7All_clear (cap : Option Nat) (l : Bytes) :
    route7All cap l Accum.clear = route7All cap (idSplit id l).buf { idSplit id l with buf := [] } := by
  rw [route7All_takeId, Accum.takeId_clear]

theorem route8All_clear (max : Option Nat) (l : Bytes) :
    route8All max l (Accum.clear, false) = route8All max (idSplit id l).buf ({ idSplit id l with buf := [] }, false) := by
  rw [route8All_takeId, Accum.takeId_clear]

/-- A payload whose data fit the capacity. -/
theorem route7All_clear_fits {cap : Option Nat} {l : Bytes} (hfits : WithinCap cap (idSplit mask7 l).buf.length) :
    route7All cap l Accum.clear = .ok (idSplit mask7 l) := by
  rw [route7All_clear, idSplit_eq mask7]
  rw [idSplit_buf_length] at hfits
  rcases idSplit_complete l with hmc | hnil
  · rw [route7All_fits (a := { idSplit id l with buf := [] }) hmc (by simpa using hfits)]
    simp
  · rw [hnil]
    rfl

/-- Settles O47: both routings take the id alike, and differ in what they do with the data after it. -/
theorem routingSplitsTheId : Obligations.RoutingSplitsTheId := by
  intro l c
  have hseven (h : ¬ (idSplit mask7 l).buf.length ≤ c) : route7All (some c) l Accum.clear = .refuse .bufOverflow := by
    rw [idSplit_buf_length] at h
    rw [route7All_clear]
    rcases idSplit_complete l with hmc | hnil
    · exact route7All_overflow (a := { idSplit id l with buf := [] }) hmc (Nat.zero_le c) (by simpa using h)
    · simp [hnil] at h
  refine ⟨route7All_clear_fits (fun _ h => nomatch h), ?_, ?_, ?_⟩
  · split
    · next h => exact route7All_clear_fits fun _ hc => by cases hc; exact h
    · next h => exact hseven h
  · refine (route8All_clear none l).trans ?_
    rcases idSplit_complete l with hmc | hnil
    · exact route8All_uncapped (a := { idSplit id l with buf := [] }) hmc _ _
    · rw [hnil]
      exact congrArg (fun b => (Accum.mk _ _ b, false)) hnil.symm
  · refine (route8All_clear (some c) l).trans ?_
    rcases idSplit_complete l with hmc | hnil
    · exact (route8All_capped (a := { idSplit id l with buf := [] }) hmc _ _ (Nat.zero_le c)).trans (by simp)
    · simp [hnil, route8All]

end Sys2Proof.Machine
end

section
/-! The collectors (43_fragment_collectors.md R246 to R251): what feeding one packet answers, one lemma per case of the
rule, then what a fragment instruction does to the addressed collector. -/

namespace Sys2Proof.Machine

/-! ### The fields of a fragment -/

theorem kindOf_toNat (p : Packet) : (kindOf p).toNat = p.w0.toNat / 2 ^ 20 % 16 := by
  rw [kindOf, fieldOf_eq_ofNat, BitVec.toNat_ofNat]

theorem countOf_toNat (p : Packet) : (countOf p).toNat = p.w0.toNat / 2 ^ 16 % 16 := by
  rw [countOf, fieldOf_eq_ofNat, BitVec.toNat_ofNat]

theorem dataBytes_eq (p : Packet) {start n : Nat} (h : start + n ≤ 16) : dataBytes p start n =
    (List.range n).map fun j => (packetBits p).extractLsb' (120 - 8 * (start + j)) 8 := by
  refine List.map_congr_left fun j hj => getByte_eq p _ ?_
  rw [List.mem_range] at hj
  omega

/-- The kinds that begin a payload. -/
abbrev FragKind.Opens (k : FragKind) : Prop := k = .complete ∨ k = .start

/-- The kinds that end a payload. -/
abbrev FragKind.Closes (k : FragKind) : Prop := k = .complete ∨ k = .end_

theorem FragKind.opens_iff (k : FragKind) : k.Opens ↔ k.code.toNat ≤ 1 := by
  cases k <;> simp [FragKind.Opens, FragKind.code]

theorem FragKind.closes_iff (k : FragKind) : k.Closes ↔ k.code.toNat = 0 ∨ k.code.toNat = 3 := by
  cases k <;> simp [FragKind.Closes, FragKind.code]

theorem fragKindOf_code (k : FragKind) : fragKindOf k.code = some k := by
  cases k <;> rfl

theorem exists_kind {p : Packet} (h : p.w0.toNat / 2 ^ 20 % 16 ≤ 3) :
    ∃ k : FragKind, kindOf p = k.code ∧ k.code.toNat = p.w0.toNat / 2 ^ 20 % 16 := by
  rw [← kindOf_toNat] at h ⊢
  have hcode : ∀ c : BitVec 4, c.toNat ≤ 3 → c = 0 ∨ c = 1 ∨ c = 2 ∨ c = 3 := by decide
  rcases hcode _ h with hc | hc | hc | hc <;> rw [hc]
  · exact ⟨.complete, rfl, rfl⟩
  · exact ⟨.start, rfl, rfl⟩
  · exact ⟨.cont, rfl, rfl⟩
  · exact ⟨.end_, rfl, rfl⟩

theorem not_idle {x : Phase} (h : x = .cont) : ¬ x = .idle := by
  rw [h]
  decide

/-! ### FC7 (R246, R247) -/

section

variable {cap : Option Nat} {p : Packet} {k : FragKind} {u : Fc7}

theorem Fc7.feed_dropped (hfamily : isFamily p 0x3 = true) (hkind : kindOf p = k.code) (hopens : ¬ k.Opens)
    (hidle : u.ph = .idle) : Fc7.feed cap p u = .ok (u, []) := by
  simp only [Fc7.feed, hfamily, if_true, hkind, fragKindOf_code]
  rw [if_neg hopens, if_pos hidle]

/-- The accumulator a fragment's bytes are routed into. -/
def Fc7.base (u : Fc7) (k : FragKind) : Accum := if k.code.toNat ≤ 1 then Accum.clear else u.acc

theorem Fc7.feed_accepted (hfamily : isFamily p 0x3 = true) (hkind : kindOf p = k.code)
    (haccept : k.Opens ∨ u.ph = .cont) :
    Fc7.feed cap p u = Fc7.collect cap k (dataBytes p 2 (countOf p).toNat) ⟨.cont, u.base k⟩ := by
  simp only [Fc7.feed, hfamily, if_true, hkind, fragKindOf_code]
  by_cases hopens : k.Opens
  · rw [if_pos hopens, Fc7.base, if_pos (k.opens_iff.mp hopens)]
  · have hcont : u.ph = .cont := haccept.resolve_left hopens
    rw [if_neg hopens, if_neg (not_idle hcont), Fc7.base, if_neg (mt k.opens_iff.mpr hopens), ← hcont]

theorem Fc7.collect_held {l : Bytes} {a : Accum} (hcloses : ¬ k.Closes) (hr : route7All cap l u.acc = .ok a) :
    Fc7.collect cap k l u = .ok (⟨.cont, a⟩, []) := by
  simp only [Fc7.collect, hr]
  exact if_neg hcloses

theorem Fc7.collect_delivered {l : Bytes} {a : Accum} (hcloses : k.Closes) (hr : route7All cap l u.acc = .ok a) :
    Fc7.collect cap k l u = .ok (⟨.idle, Accum.clear⟩, [.payload a.mid a.buf none]) := by
  simp only [Fc7.collect, hr]
  exact if_pos hcloses

theorem Fc7.collect_refused {l : Bytes} {r : RefuseReason} (hr : route7All cap l u.acc = .refuse r) :
    Fc7.collect cap k l u = .refuse r := by
  simp only [Fc7.collect, hr]

end

/-- Settles O45: a recognized fragment is dropped or collected, and what is collected is held, delivered or refused. -/
theorem fc7Feed : Obligations.Fc7Feed := by
  intro i p s hfragment hunit u kind count recognized bytes start
  have hexec := exec_of_fragment7Of hfragment s
  have hfamily : isFamily p 0x3 = true ↔ recognized := isFamily_sysex7_iff p
  refine ⟨fun hno => ?_, fun hrec hlate hidle => ?_, fun hrec haccept => ?_⟩
  · exact fc7Becomes_of hexec hunit (Fc7.feed_unrecognized _ u (Bool.not_eq_true _ ▸ mt hfamily.mp hno))
  · obtain ⟨k, hkind, hcode⟩ := exists_kind hrec.2.1
    have hopens : ¬ k.Opens := by rw [k.opens_iff, hcode]; exact Nat.not_le.mpr hlate
    exact fc7Becomes_of hexec hunit (Fc7.feed_dropped (hfamily.mpr hrec) hkind hopens hidle)
  · obtain ⟨k, hkind, hcode⟩ := exists_kind hrec.2.1
    have hbytes : dataBytes p 2 (countOf p).toNat = bytes := by
      have hcount : count ≤ 6 := hrec.2.2
      rw [countOf_toNat]
      exact dataBytes_eq p (show 2 + count ≤ 16 by omega)
    have hstart : u.base k = start := by rw [Fc7.base, hcode]; rfl
    have hfeed : Fc7.feed s.params.fc7BufCap p u = Fc7.collect s.params.fc7BufCap k bytes ⟨.cont, start⟩ := by
      rw [← hbytes, ← hstart]
      exact Fc7.feed_accepted (hfamily.mpr hrec) hkind (haccept.imp_left fun h => k.opens_iff.mpr (hcode ▸ h))
    refine ⟨fun a hr => ⟨fun hmore => ?_, fun hlast => ?_⟩, fun r hr => ?_⟩
    · have hcloses : ¬ k.Closes := by rw [k.closes_iff, hcode]; omega
      exact fc7Becomes_of hexec hunit (hfeed.trans (Fc7.collect_held hcloses hr))
    · have hcloses : k.Closes := by rw [k.closes_iff, hcode]; exact hlast
      exact fc7Becomes_of hexec hunit (hfeed.trans (Fc7.collect_delivered hcloses hr))
    · exact fc7Refuses_of hexec hunit (hfeed.trans (Fc7.collect_refused hr))

/-! ### FC8 (R249 to R251) -/

section

variable {flag : Bool} {p : Packet} {k : FragKind} {u : Fc8}

/-- In phase CONT a packet of another stream is ignored, recognized or not. -/
theorem Fc8.feed_foreign (hcont : u.ph = .cont) (hsid : getByte p 2 ≠ u.act) : Fc8.feed flag p u = (u, []) := by
  unfold Fc8.feed
  split
  · split
    · rfl
    · simp only
      split
      · exact if_pos ⟨hcont, hsid⟩
      · exact if_neg (not_idle hcont)
  · rfl

theorem Fc8.feed_dropped (hfamily : isFamily p 0x5 = true) (hkind : kindOf p = k.code) (hopens : ¬ k.Opens)
    (hidle : u.ph = .idle) : Fc8.feed flag p u = (u, []) := by
  simp only [Fc8.feed, hfamily, if_true, hkind, fragKindOf_code]
  rw [if_neg hopens, if_pos hidle]

/-- The accumulator and mark a fragment's bytes are routed into. -/
def Fc8.base (u : Fc8) (k : FragKind) : Accum × Bool := if k.code.toNat ≤ 1 then (Accum.clear, false) else (u.acc, u.tr)

theorem Fc8.feed_accepted (hfamily : isFamily p 0x5 = true) (hkind : kindOf p = k.code)
    (haccept : u.ph = .cont ∧ getByte p 2 = u.act ∨ u.ph = .idle ∧ k.Opens) :
    Fc8.feed flag p u = Fc8.collect flag k (dataBytes p 3 ((countOf p).toNat - 1))
      { u with ph := .cont, acc := (u.base k).1, act := getByte p 2, tr := (u.base k).2 } := by
  simp only [Fc8.feed, hfamily, if_true, hkind, fragKindOf_code]
  by_cases hopens : k.Opens
  · have hown : ¬ (u.ph = .cont ∧ getByte p 2 ≠ u.act) := by
      rintro ⟨hcont, hsid⟩
      rcases haccept with ⟨_, hact⟩ | ⟨hidle, _⟩
      · exact hsid hact
      · rw [hidle] at hcont; cases hcont
    rw [if_pos hopens, if_neg hown, Fc8.base, if_pos (k.opens_iff.mp hopens)]
  · obtain ⟨hcont, hact⟩ := haccept.resolve_right fun h => hopens h.2
    rw [if_neg hopens, if_neg (not_idle hcont), if_neg (not_not.mpr hact), Fc8.base,
      if_neg (mt k.opens_iff.mpr hopens), hact, ← hcont]

theorem Fc8.collect_held {l : Bytes} (hcloses : ¬ k.Closes) : Fc8.collect flag k l u =
    ({ u with ph := .cont, acc := (route8All u.max l (u.acc, u.tr)).1, tr := (route8All u.max l (u.acc, u.tr)).2 }, []) :=
  if_neg hcloses

theorem Fc8.collect_delivered {l : Bytes} (hcloses : k.Closes) : Fc8.collect flag k l u =
    ({ u with ph := .idle, acc := Accum.clear, tr := false },
      [.payload (route8All u.max l (u.acc, u.tr)).1.mid (route8All u.max l (u.acc, u.tr)).1.buf
        (if flag then some (route8All u.max l (u.acc, u.tr)).2 else none)]) :=
  if_pos hcloses

end

/-- Settles O46: a recognized fragment is dropped, foreign or collected, and what is collected is held or delivered. -/
theorem fc8Feed : Obligations.Fc8Feed := by
  intro i p s hfragment hunit u kind count sid recognized bytes start a
  have becomes {x : Fc8 × List Event} (hx : Fc8.feed s.params.fc8TruncFlag p u = x) : Fc8Becomes i s x.1 x.2 :=
    fc8Becomes_of (exec_of_fragment8Of hfragment s) hunit (congrArg Reply.ok hx)
  have hfamily : isFamily p 0x5 = true ↔ recognized := isFamily_sysex8_iff p
  have hsid : getByte p 2 = sid := getByte_eq p 2 (by decide)
  refine ⟨fun hno => ?_, fun hrec hlate hidle => ?_, fun hrec hcont hforeign => ?_, fun hrec haccept => ?_⟩
  · exact becomes (Fc8.feed_unrecognized _ u (Bool.not_eq_true _ ▸ mt hfamily.mp hno))
  · obtain ⟨k, hkind, hcode⟩ := exists_kind hrec.2.1
    have hopens : ¬ k.Opens := by rw [k.opens_iff, hcode]; exact Nat.not_le.mpr hlate
    exact becomes (Fc8.feed_dropped (hfamily.mpr hrec) hkind hopens hidle)
  · exact becomes (Fc8.feed_foreign hcont (hsid ▸ hforeign))
  · obtain ⟨k, hkind, hcode⟩ := exists_kind hrec.2.1
    have hbytes : dataBytes p 3 ((countOf p).toNat - 1) = bytes := by
      have hcount : count ≤ 14 := hrec.2.2.2
      rw [countOf_toNat]
      exact dataBytes_eq p (show 3 + (count - 1) ≤ 16 by omega)
    have hstart : u.base k = start := by rw [Fc8.base, hcode]; rfl
    have hfeed : Fc8.feed s.params.fc8TruncFlag p u = Fc8.collect s.params.fc8TruncFlag k bytes
        { u with ph := .cont, acc := start.1, act := sid, tr := start.2 } := by
      rw [← hbytes, ← hstart, ← hsid]
      refine Fc8.feed_accepted (hfamily.mpr hrec) hkind (haccept.imp ?_ ?_)
      · exact fun ⟨hcont, hact⟩ => ⟨hcont, hsid.trans hact⟩
      · exact fun ⟨hidle, hopens⟩ => ⟨hidle, k.opens_iff.mpr (hcode ▸ hopens)⟩
    refine ⟨fun hmore => ?_, fun hlast => ?_⟩
    · have hcloses : ¬ k.Closes := by rw [k.closes_iff, hcode]; omega
      exact becomes (hfeed.trans (Fc8.collect_held hcloses))
    · have hcloses : k.Closes := by rw [k.closes_iff, hcode]; exact hlast
      exact becomes (hfeed.trans (Fc8.collect_delivered hcloses))

end Sys2Proof.Machine
end

section
/-! The fragmenters (43_fragment_collectors.md R255, R257): the packets of FR7 and FR8 and the bytes they carry. -/

namespace Sys2Proof.Machine

/-! ### The pieces of a payload -/

/-- A payload of more than `K` bytes, cut into a first piece, pieces between, and a last one: all but the last hold `K`
bytes, and the last holds the rest. -/
structure IsSplit (K : Nat) (B c : Bytes) (ds : List Bytes) (e : Bytes) : Prop where
  first : c.length = K
  middle : ∀ d ∈ ds, d.length = K
  last : 1 ≤ e.length ∧ e.length ≤ K
  joined : c ++ ds.flatten ++ e = B

theorem piecesFrom_eq_append {K : Nat} (hK : 0 < K) (n : Nat) {B : Bytes} (hne : B ≠ []) (hn : B.length ≤ n) :
    ∃ ds e, piecesFrom n K B = ds ++ [e] ∧ (∀ d ∈ ds, d.length = K) ∧ (1 ≤ e.length ∧ e.length ≤ K) ∧
      ds.flatten ++ e = B := by
  have hpos : 0 < B.length := List.length_pos_iff.mpr hne
  induction n generalizing B with
  | zero => omega
  | succ n ih =>
    rw [piecesFrom, if_neg hne]
    by_cases hfits : B.length ≤ K
    · have hrest : piecesFrom n K (B.drop K) = [] := by
        rw [List.drop_eq_nil_of_le hfits]
        cases n <;> rfl
      refine ⟨[], B, ?_, List.forall_mem_nil _, ⟨hpos, hfits⟩, rfl⟩
      rw [hrest, List.take_of_length_le hfits, List.nil_append]
    · have hdrop : (B.drop K).length = B.length - K := List.length_drop
      have hdropPos : 0 < (B.drop K).length := by omega
      obtain ⟨ds, e, hpieces, hds, he, hjoin⟩ := ih (List.length_pos_iff.mp hdropPos) (by omega) hdropPos
      refine ⟨B.take K :: ds, e, by rw [hpieces, List.cons_append], ?_, he, ?_⟩
      · exact List.forall_mem_cons.mpr ⟨List.length_take_of_le (by omega), hds⟩
      · rw [List.flatten_cons, List.append_assoc, hjoin, List.take_append_drop]

section

variable (mk : FragKind → Bytes → Packet) {K : Nat} {B : Bytes}

theorem laterFragments_append (ds : List Bytes) (e : Bytes) :
    laterFragments mk (ds ++ [e]) = ds.map (mk .cont) ++ [mk .end_ e] := by
  induction ds with
  | nil => rfl
  | cons d rest ih =>
    have hcons : laterFragments mk (d :: (rest ++ [e])) = mk .cont d :: laterFragments mk (rest ++ [e]) := by
      cases rest <;> rfl
    rw [List.cons_append, hcons, ih, List.map_cons, List.cons_append]

theorem fragments_single (h : B.length ≤ K) : fragments mk K B = [mk .complete B] := if_pos h

theorem fragments_split (hK : 0 < K) (h : K < B.length) : ∃ c ds e, IsSplit K B c ds e ∧
    fragments mk K B = mk .start c :: (ds.map (mk .cont) ++ [mk .end_ e]) := by
  have hne : B ≠ [] := List.length_pos_iff.mp (by omega)
  obtain ⟨ds, e, hpieces, hds, he, hjoin⟩ := piecesFrom_eq_append hK B.length hne (Nat.le_refl _)
  cases ds with
  | nil =>
    obtain rfl : e = B := hjoin
    omega
  | cons c ds =>
    obtain ⟨hc, hds⟩ := List.forall_mem_cons.mp hds
    refine ⟨c, ds, e, ⟨hc, hds, he, by rwa [List.flatten_cons] at hjoin⟩, ?_⟩
    rw [fragments, if_neg (Nat.not_le.mpr h), pieces, hpieces, List.cons_append, ← laterFragments_append]

end

/-! ### What a list of fragments carries -/

/-- The kind codes of `n` fragments of one payload. -/
def kindCodes (n : Nat) : List (BitVec 4) := if n = 1 then [0] else 1 :: (List.replicate (n - 2) 2 ++ [3])

/-- Packets built by `mk` that carry the payload `B`, `K` bytes in all but the last. -/
structure Carries (mk : FragKind → Bytes → Packet) (data : Packet → Bytes) (K : Nat) (B : Bytes) (ps : List Packet) :
    Prop where
  kinds : ps.map kindOf = kindCodes ps.length
  payload : ps.flatMap data = B
  packets : ∀ p ∈ ps, ∃ k c, p = mk k c ∧ c.length ≤ K ∧ (1 < ps.length → 1 ≤ c.length)
  full : ∀ p ∈ ps.dropLast, ∃ k c, p = mk k c ∧ c.length = K

theorem fragments_carries {mk : FragKind → Bytes → Packet} {data : Packet → Bytes} {K : Nat} (hK : 0 < K)
    (hkind : ∀ k c, kindOf (mk k c) = k.code) (hdata : ∀ k c, c.length ≤ K → data (mk k c) = c) (B : Bytes) :
    Carries mk data K B (fragments mk K B) := by
  by_cases hfits : B.length ≤ K
  · rw [fragments_single mk hfits]
    refine ⟨by simp [hkind, kindCodes, FragKind.code], by simp [hdata _ _ hfits], ?_, fun p hp => nomatch hp⟩
    exact List.forall_mem_singleton.mpr ⟨_, _, rfl, hfits, fun h => absurd h (Nat.lt_irrefl 1)⟩
  · obtain ⟨c, ds, e, ⟨hc, hds, he, hjoin⟩, hps⟩ := fragments_split mk hK (Nat.not_le.mp hfits)
    rw [hps]
    have hmiddle : (ds.map (mk .cont)).flatMap data = ds.flatten := by
      rw [List.flatMap_map, List.flatten_eq_flatMap]
      exact List.flatMap_congr fun d hd => hdata _ _ (hds d hd).le
    refine ⟨?_, ?_, fun p hp => ?_, fun p hp => ?_⟩
    · simp [kindCodes, hkind, FragKind.code, Function.comp_def, List.map_const']
    · rw [List.flatMap_cons, List.flatMap_append, List.flatMap_singleton, hmiddle, hdata _ _ hc.le, hdata _ _ he.2,
        ← List.append_assoc, hjoin]
    · rw [List.mem_cons, List.mem_append, List.mem_map, List.mem_singleton] at hp
      rcases hp with rfl | ⟨d, hd, rfl⟩ | rfl
      · exact ⟨_, _, rfl, hc.le, fun _ => hc ▸ hK⟩
      · exact ⟨_, _, rfl, (hds d hd).le, fun _ => hds d hd ▸ hK⟩
      · exact ⟨_, _, rfl, he.2, fun _ => he.1⟩
    · rw [← List.cons_append, List.dropLast_concat, List.mem_cons, List.mem_map] at hp
      rcases hp with rfl | ⟨d, hd, rfl⟩
      · exact ⟨_, _, rfl, hc⟩
      · exact ⟨_, _, rfl, hds d hd⟩

/-! ### The fields of one fragment (R99, R100) -/

theorem dataBytes_of_byteAt {p : Packet} {start : Nat} {c : Bytes}
    (h : ∀ j, j < c.length → getByte p (start + j) = byteAt c j) : dataBytes p start c.length = c := by
  refine List.ext_getElem (by simp [dataBytes]) fun j _ hj => ?_
  simp [dataBytes, h j hj, byteAt, hj]

section

variable (g : BitVec 4) (k : FragKind) (sid : Byte) {c : Bytes}

theorem getByte_t3 (hc : c.length ≤ 6) {j : Nat} (hj : 2 + j < 16) : getByte (t3 g k c) (2 + j) = byteAt c j := by
  rw [t3_eq_packetOfBytes g k hc, getByte_packetOfBytes _ hj, Nat.add_comm, t3Byte]

theorem countOf_t3 (hc : c.length ≤ 6) : (countOf (t3 g k c)).toNat = c.length := by
  rw [t3, countOf_t3Packet, BitVec.toNat_ofNat]
  exact Nat.mod_eq_of_lt (by omega)

theorem data_t3 (hc : c.length ≤ 6) : dataBytes (t3 g k c) 2 (countOf (t3 g k c)).toNat = c := by
  rw [countOf_t3 g k hc]
  exact dataBytes_of_byteAt fun j hj => getByte_t3 g k hc (by omega)

theorem getByte_t5_sid : getByte (t5 g k sid c) 2 = sid := by
  rw [t5_eq_packetOfBytes, getByte_packetOfBytes _ (by decide), t5Byte]

theorem getByte_t5 {j : Nat} (hj : 3 + j < 16) : getByte (t5 g k sid c) (3 + j) = byteAt c j := by
  rw [t5_eq_packetOfBytes, getByte_packetOfBytes _ hj, Nat.add_comm, t5Byte]

theorem countOf_t5 (hc : c.length ≤ 13) : (countOf (t5 g k sid c)).toNat = c.length + 1 := by
  rw [t5, countOf_t5Packet, BitVec.toNat_ofNat]
  exact Nat.mod_eq_of_lt (by omega)

theorem data_t5 (hc : c.length ≤ 13) :
    dataBytes (t5 g k sid c) 3 ((countOf (t5 g k sid c)).toNat - 1) = c := by
  rw [countOf_t5 g k sid hc, Nat.add_sub_cancel]
  exact dataBytes_of_byteAt fun j hj => getByte_t5 g k sid (by omega)

end

/-! ### The obligation -/

theorem fr7Frag_answers {mid : BitVec 24} (h : canonicalId mid = true) (l : Bytes) (g : BitVec 4) {s : State}
    (hunit : s.target.unit = .sx) : Answers (.fr7Frag mid l g) s (.packets (fr7Fragments mid l g)) :=
  answers_of (congrArg (answer .sx · s) (if_pos h)) hunit

theorem fr8Frag_answers {mid : BitVec 24} (h : canonicalId mid = true) (l : Bytes) (g : BitVec 4) (sid : Byte) {s : State}
    (hunit : s.target.unit = .sx) : Answers (.fr8Frag mid l g sid) s (.packets (fr8Fragments mid l g sid)) :=
  answers_of (congrArg (answer .sx · s) (if_pos h)) hunit

theorem fr7Fragments_eq (mid : BitVec 24) (l : Bytes) (g : BitVec 4) :
    fr7Fragments mid l g = fragments (t3 g) 6 (idBytes mid ++ l.map mask7) := by
  have hmask : (fun b : Byte => (b.setWidth 7).setWidth 8) = mask7 := by
    funext b
    obtain ⟨-, -, -, -, hbyte⟩ := idBits_of_byte b
    exact hbyte
  rw [fr7Fragments, hmask]

theorem fr7Fragments_carry (mid : BitVec 24) (l : Bytes) (g : BitVec 4) :
    Carries (t3 g) (fun p => dataBytes p 2 (countOf p).toNat) 6 (idBytes mid ++ l.map mask7) (fr7Fragments mid l g) := by
  rw [fr7Fragments_eq]
  exact fragments_carries (by decide) (fun _ _ => kindOf_t3Packet ..) (fun k _ hc => data_t3 g k hc) _

theorem fr8Fragments_carry (mid : BitVec 24) (l : Bytes) (g : BitVec 4) (sid : Byte) :
    Carries (fun k c => t5 g k sid c) (fun p => dataBytes p 3 ((countOf p).toNat - 1)) 13 (idBytes mid ++ l)
      (fr8Fragments mid l g sid) :=
  fragments_carries (by decide) (fun _ _ => kindOf_t5Packet ..) (fun k _ hc => data_t5 g k sid hc) _

/-- Settles O49: the fragmenters check the id, and their packets are the pieces of the payload. -/
theorem fragmentersSplitThePayload : Obligations.FragmentersSplitThePayload := by
  intro mid l g sid s hunit canonical kinds
  have hcanonical : canonicalId mid = true ↔ canonical := canonicalId_iff mid
  refine ⟨rfl, rfl, fun hno => ?_, fun hid => ?_⟩
  · have hrefused : ¬ canonicalId mid = true := mt hcanonical.mp hno
    exact ⟨faults_of (congrArg (answer .sx · s) (if_neg hrefused)) hunit,
      faults_of (congrArg (answer .sx · s) (if_neg hrefused)) hunit⟩
  · obtain ⟨hkinds7, hpayload7, hpackets7, hfull7⟩ := fr7Fragments_carry mid l g
    obtain ⟨hkinds8, hpayload8, hpackets8, hfull8⟩ := fr8Fragments_carry mid l g sid
    refine ⟨⟨_, fr7Frag_answers (hcanonical.mpr hid) l g hunit, hkinds7, hpayload7, fun p hp => ?_, fun p hp => ?_⟩,
      _, fr8Frag_answers (hcanonical.mpr hid) l g sid hunit, hkinds8, hpayload8, fun p hp => ?_, fun p hp => ?_⟩
    · obtain ⟨k, c, rfl, hc, hmany⟩ := hpackets7 p hp
      rw [countOf_t3 g k hc]
      refine ⟨tagOf_t3Packet .., groupField_t3Packet .., hc, hmany, fun j hlow hhigh => ?_⟩
      obtain ⟨j, rfl⟩ := Nat.exists_eq_add_of_le (show 2 ≤ j by omega)
      rw [getByte_t3 g k hc hhigh, byteAt_of_length_le (by omega)]
    · obtain ⟨k, c, rfl, hc⟩ := hfull7 p hp
      rw [countOf_t3 g k hc.le, hc]
    · obtain ⟨k, c, rfl, hc, hmany⟩ := hpackets8 p hp
      rw [countOf_t5 g k sid hc]
      refine ⟨tagOf_t5Packet .., groupField_t5Packet .., getByte_t5_sid .., by omega, by omega,
        fun h => Nat.succ_le_succ (hmany h), fun j hlow hhigh => ?_⟩
      obtain ⟨j, rfl⟩ := Nat.exists_eq_add_of_le (show 3 ≤ j by omega)
      rw [getByte_t5 g k sid hhigh, byteAt_of_length_le (by omega)]
    · obtain ⟨k, c, rfl, hc⟩ := hfull8 p hp
      rw [countOf_t5 g k sid hc.le, hc]

end Sys2Proof.Machine
end

section
/-! The round trips (43_fragment_collectors.md R259, R260): packets fed in order to one unit, what that makes of the machine,
and the collectors fed with the packets of the fragmenters. -/

namespace Sys2Proof.Machine

/-! ### Packets fed to a unit, and the machine -/

/-- The packets fed in order to the unit `u`, each with OK, leave `v`; each packet's events are listed. -/
inductive Feeds {σ : Type} (f : Packet → σ → Reply (σ × List Event)) : σ → List Packet → List (List Event) → σ → Prop
  | nil (u : σ) : Feeds f u [] [] u
  | cons {u v w : σ} {p : Packet} {ev : List Event} {ps : List Packet} {evs : List (List Event)}
      (first : f p u = .ok (v, ev)) (rest : Feeds f v ps evs w) : Feeds f u (p :: ps) (ev :: evs) w

/-- The machine after commands that answered OK with these events: the addressed unit is `u`, no other unit of its kind is
changed. -/
structure Ran {σ : Type} (unitAt : State → Nat → σ) (s : State) (u : σ) (evs : List (List Event)) (t : State) : Prop where
  params : t.params = s.params
  target : t.target = s.target
  addressed : unitAt t s.target.idx = u
  others : ∀ m, m ≠ s.target.idx → unitAt t m = unitAt s m
  responses : t.responses = s.responses ++ evs.map fun ev => ⟨.ok, none, ev⟩

section

variable {σ : Type} {f : Packet → σ → Reply (σ × List Event)} {u v w : σ} {p : Packet} {ev : List Event}
  {ps qs : List Packet} {evs evs' : List (List Event)} {unitAt : State → Nat → σ} {s t t' : State}

theorem Feeds.single (h : f p u = .ok (v, ev)) : Feeds f u [p] [ev] v := .cons h (.nil v)

theorem Feeds.append (h : Feeds f u ps evs v) (h' : Feeds f v qs evs' w) : Feeds f u (ps ++ qs) (evs ++ evs') w := by
  induction h with
  | nil => exact h'
  | cons hfirst _ ih => exact .cons hfirst (ih h')

theorem Ran.cons (h : Ran unitAt s v [ev] t) (h' : Ran unitAt t w evs t') : Ran unitAt s w (ev :: evs) t' where
  params := h'.params.trans h.params
  target := h'.target.trans h.target
  addressed := h.target ▸ h'.addressed
  others m hm := (h'.others m (h.target ▸ hm)).trans (h.others m hm)
  responses := by rw [h'.responses, h.responses, List.append_assoc]; rfl

/-- What packets do to a unit they do to the addressed unit of the machine. -/
theorem runAll_of_feeds {kind : UnitKind} {feed : Packet → Instr} {g : Params → Packet → σ → Reply (σ × List Event)}
    (hstep : ∀ (s : State) p v ev, s.target.unit = kind → g s.params p (unitAt s s.target.idx) = .ok (v, ev) →
      ∃ t, exec (feed p) s = .next t ∧ Ran unitAt s v [ev] t)
    (hunit : s.target.unit = kind) (h : Feeds (g s.params) (unitAt s s.target.idx) ps evs w) :
    ∃ t, runAll (ps.map feed) s = .next t ∧ Ran unitAt s w evs t := by
  generalize hf : g s.params = f at h
  generalize hu : unitAt s s.target.idx = u at h
  induction h generalizing s with
  | nil u => exact ⟨s, rfl, rfl, rfl, hu, fun _ _ => rfl, (List.append_nil _).symm⟩
  | @cons u v _ p ev _ _ hfirst _ ih =>
    obtain ⟨t, hexec, hran⟩ := hstep s p v ev hunit (by rw [hf, hu]; exact hfirst)
    obtain ⟨t', hrest, hran'⟩ := ih (s := t) (hran.target ▸ hunit) (hran.params ▸ hf) (hran.target ▸ hran.addressed)
    exact ⟨t', (runAll_cons hexec _).trans hrest, hran.cons hran'⟩

theorem runAll_fc7Feed {w : Fc7} (hunit : s.target.unit = .fc7)
    (h : Feeds (Fc7.feed s.params.fc7BufCap) (s.fc7At s.target.idx) ps evs w) :
    ∃ t, runAll (ps.map .fc7Feed) s = .next t ∧ Ran State.fc7At s w evs t := by
  refine runAll_of_feeds (g := fun c p u => Fc7.feed c.fc7BufCap p u) (fun s p v ev hunit hfeed => ?_) hunit h
  obtain ⟨t, hexec, hsame, hothers, hframe⟩ := fc7Becomes_of (exec_of_fragment7Of (i := .fc7Feed p) rfl s) hunit hfeed
  exact ⟨t, hexec, by rw [hframe], by rw [hframe], hsame, hothers, by rw [hframe]; rfl⟩

theorem runAll_fc8Feed {w : Fc8} (hunit : s.target.unit = .fc8)
    (h : Feeds (fun p u => .ok (Fc8.feed s.params.fc8TruncFlag p u)) (s.fc8At s.target.idx) ps evs w) :
    ∃ t, runAll (ps.map .fc8Feed) s = .next t ∧ Ran State.fc8At s w evs t := by
  refine runAll_of_feeds (g := fun c p u => .ok (Fc8.feed c.fc8TruncFlag p u)) (fun s p v ev hunit hfeed => ?_) hunit h
  obtain ⟨t, hexec, hsame, hothers, hframe⟩ := fc8Becomes_of (exec_of_fragment8Of (i := .fc8Feed p) rfl s) hunit hfeed
  exact ⟨t, hexec, by rw [hframe], by rw [hframe], hsame, hothers, by rw [hframe]; rfl⟩

/-- Responses of a message that is delivered on its last packet. -/
theorem Ran.responses_delivered {n : Nat} (h : Ran unitAt s u (List.replicate n [] ++ [ev]) t) :
    t.responses = s.responses ++ List.replicate n ⟨.ok, none, []⟩ ++ [⟨.ok, none, ev⟩] := by
  rw [h.responses, List.map_append, List.map_replicate, List.append_assoc]
  rfl

end

/-! ### A unit that collects a payload -/

/-- The unit `u` collects the payload `B` from the fragments `mk` builds: it delivers `ev` and becomes `v` on the last of
them, after the first bytes `P` of the payload it is a unit that `Holds P`, and it then ignores a packet that is not its own. -/
structure Collects {σ : Type} (f : Packet → σ → Reply (σ × List Event)) (mk : FragKind → Bytes → Packet)
    (own : Packet → Bool) (K : Nat) (B : Bytes) (u v : σ) (ev : List Event) (Holds : Bytes → σ → Prop) : Prop where
  complete : B.length ≤ K → f (mk .complete B) u = .ok (v, ev)
  start : ∀ c rest, c ++ rest = B → c.length ≤ K → ∃ w, f (mk .start c) u = .ok (w, []) ∧ Holds c w
  cont : ∀ P c rest w, P ++ c ++ rest = B → c.length ≤ K → Holds P w →
    ∃ w', f (mk .cont c) w = .ok (w', []) ∧ Holds (P ++ c) w'
  end_ : ∀ P c w, P ++ c = B → c.length ≤ K → Holds P w → f (mk .end_ c) w = .ok (v, ev)
  foreign : ∀ P q w, Holds P w → own q = false → f q w = .ok (w, [])
  isOwn : ∀ k c, own (mk k c) = true

section

variable {σ : Type} {f : Packet → σ → Reply (σ × List Event)} {mk : FragKind → Bytes → Packet} {own : Packet → Bool}
  {K : Nat} {B : Bytes} {u v : σ} {ev : List Event} {Holds : Bytes → σ → Prop}

/-- CONT packets with foreign packets among them. -/
theorem Collects.feeds_middle (h : Collects f mk own K B u v ev Holds) {ys : List Packet} {ds : List Bytes}
    {P rest : Bytes} {w : σ} (hys : ys.filter own = ds.map (mk .cont)) (hds : ∀ d ∈ ds, d.length ≤ K)
    (hjoin : P ++ ds.flatten ++ rest = B) (hw : Holds P w) :
    ∃ w', Feeds f w ys (List.replicate ys.length []) w' ∧ Holds (P ++ ds.flatten) w' := by
  induction ys generalizing ds P w with
  | nil =>
    obtain rfl : ds = [] := List.map_eq_nil_iff.mp hys.symm
    exact ⟨w, .nil w, by rwa [List.flatten_nil, List.append_nil]⟩
  | cons y ys ih =>
    cases hown : own y with
    | false =>
      rw [List.filter_cons_of_neg (by simp [hown])] at hys
      obtain ⟨w', hfeeds, hholds⟩ := ih hys hds hjoin hw
      exact ⟨w', .cons (h.foreign P y w hw hown) hfeeds, hholds⟩
    | true =>
      rw [List.filter_cons_of_pos hown] at hys
      obtain ⟨d, ds, rfl, rfl, hrest⟩ := List.map_eq_cons_iff.mp hys.symm
      obtain ⟨hd, hds⟩ := List.forall_mem_cons.mp hds
      rw [List.flatten_cons, ← List.append_assoc] at hjoin ⊢
      obtain ⟨w₁, hfeed, hw₁⟩ := h.cont P d (ds.flatten ++ rest) w (by rw [← List.append_assoc, hjoin]) hd hw
      obtain ⟨w', hfeeds, hholds⟩ := ih hrest.symm hds hjoin hw₁
      exact ⟨w', .cons hfeed hfeeds, hholds⟩

/-- A message of two packets or more, with foreign packets between its first and its last. -/
theorem Collects.feeds_message (h : Collects f mk own K B u v ev Holds) {c e : Bytes} {ds : List Bytes}
    {ys : List Packet} (hsplit : IsSplit K B c ds e) (hys : ys.filter own = ds.map (mk .cont)) :
    Feeds f u (mk .start c :: (ys ++ [mk .end_ e])) (List.replicate (ys.length + 1) [] ++ [ev]) v := by
  obtain ⟨hc, hds, ⟨_, he⟩, hjoin⟩ := hsplit
  obtain ⟨w, hstart, hw⟩ := h.start c (ds.flatten ++ e) (by rw [← List.append_assoc, hjoin]) hc.le
  obtain ⟨w', hmiddle, hw'⟩ := h.feeds_middle hys (fun d hd => (hds d hd).le) hjoin hw
  exact .cons hstart (hmiddle.append (.single (h.end_ _ e w' hjoin he hw')))

/-- The fragments of the payload, with nothing between them. -/
theorem Collects.feeds_fragments (h : Collects f mk own K B u v ev Holds) (hK : 0 < K) :
    Feeds f u (fragments mk K B) (List.replicate ((fragments mk K B).length - 1) [] ++ [ev]) v := by
  by_cases hfits : B.length ≤ K
  · rw [fragments_single mk hfits]
    exact .single (h.complete hfits)
  · obtain ⟨c, ds, e, hsplit, hps⟩ := fragments_split mk hK (Nat.not_le.mp hfits)
    have hown : (ds.map (mk .cont)).filter own = ds.map (mk .cont) := by
      rw [List.filter_eq_self]
      exact List.forall_mem_map.mpr fun d _ => h.isOwn .cont d
    have hlen : (fragments mk K B).length - 1 = (ds.map (mk .cont)).length + 1 := by simp [hps]
    rw [hlen, hps]
    exact h.feeds_message hsplit hown

end

/-! ### FC7 collects what FR7 sends -/

/-- Bytes that are all routed are routed up to any of them. -/
theorem route7All_ok_of_append {cap : Option Nat} {l m : Bytes} {a b : Accum} (h : route7All cap (l ++ m) a = .ok b) :
    ∃ a', route7All cap l a = .ok a' := by
  induction l generalizing a with
  | nil => exact ⟨a, rfl⟩
  | cons x rest ih =>
    rw [List.cons_append, route7All] at h
    rw [route7All]
    split at h
    · exact ih h
    · cases h
    · cases h

section

variable {cap : Option Nat} {g : BitVec 4} {k : FragKind} {c : Bytes}

theorem isFamily_t3 (g : BitVec 4) (k : FragKind) (hc : c.length ≤ 6) : isFamily (t3 g k c) 0x3 = true := by
  rw [isFamily_sysex7_iff, ← tagOf_toNat, ← kindOf_toNat, ← countOf_toNat, countOf_t3 g k hc, t3, tagOf_t3Packet,
    kindOf_t3Packet]
  exact ⟨rfl, by cases k <;> decide, hc⟩

theorem Fc7.feed_t3 {u : Fc7} (hc : c.length ≤ 6) (haccept : k.Opens ∨ u.ph = .cont) :
    Fc7.feed cap (t3 g k c) u = Fc7.collect cap k c ⟨.cont, u.base k⟩ := by
  rw [Fc7.feed_accepted (isFamily_t3 g k hc) (kindOf_t3Packet ..) haccept, data_t3 g k hc]

/-- A collector in the middle of a message that has received the bytes `P`. -/
structure Fc7.Holds (cap : Option Nat) (P : Bytes) (w : Fc7) : Prop where
  phase : w.ph = .cont
  routed : route7All cap P Accum.clear = .ok w.acc

theorem fc7_collects {B : Bytes} {a : Accum} (g : BitVec 4) (u : Fc7) (hroute : route7All cap B Accum.clear = .ok a) :
    Collects (Fc7.feed cap) (t3 g) (fun _ => true) 6 B u ⟨.idle, Accum.clear⟩ [.payload a.mid a.buf none]
      (Fc7.Holds cap) where
  complete hB := (Fc7.feed_t3 hB (.inl (.inl rfl))).trans (Fc7.collect_delivered (.inl rfl) hroute)
  start c rest hjoin hc := by
    obtain ⟨a', ha'⟩ := route7All_ok_of_append (hjoin ▸ hroute)
    exact ⟨⟨.cont, a'⟩, (Fc7.feed_t3 hc (.inl (.inr rfl))).trans (Fc7.collect_held (by decide) ha'), rfl, ha'⟩
  cont P c rest w hjoin hc hw := by
    obtain ⟨a', ha'⟩ := route7All_ok_of_append (hjoin ▸ hroute)
    have hadd : route7All cap c w.acc = .ok a' := (route7All_append cap P c _ _ hw.routed).symm.trans ha'
    exact ⟨⟨.cont, a'⟩, (Fc7.feed_t3 hc (.inr hw.phase)).trans (Fc7.collect_held (by decide) hadd), rfl, ha'⟩
  end_ P c w hjoin hc hw := by
    have hadd : route7All cap c w.acc = .ok a :=
      (route7All_append cap P c _ _ hw.routed).symm.trans (hjoin ▸ hroute)
    exact (Fc7.feed_t3 hc (.inr hw.phase)).trans (Fc7.collect_delivered (.inr rfl) hadd)
  foreign _ _ _ _ hq := nomatch hq
  isOwn _ _ := rfl

end

/-! ### The payload a fragmenter sends -/

theorem mask7_of_lt : ∀ b : Byte, b.toNat < 0x80 → mask7 b = b := by decide

theorem SevenBit.map_mask7 {l : Bytes} (h : SevenBit l) : l.map mask7 = l :=
  (List.map_congr_left fun b hb => mask7_of_lt b (h b hb)).trans (List.map_id l)

theorem idSplit_idBytes {mid : BitVec 24} (hne : mid ≠ 0) (hid : canonicalId mid = true) (f : Byte → Byte) (l : Bytes) :
    idSplit f (idBytes mid ++ l) = ⟨3, mid, l.map f⟩ := by
  obtain ⟨htail, hseven⟩ := (canonicalId_iff mid).mp hid
  have hmask : ∀ b ∈ idBytes mid, b &&& 0x7F = b := fun b hb => mask7_of_lt b (hseven b hb)
  unfold idBytes at hmask ⊢
  rw [if_neg hne] at hmask ⊢
  have hlt := mid.isLt
  by_cases hshort : mid.extractLsb' 16 8 ≠ 0
  · rw [if_pos hshort] at hmask ⊢
    have hlow : mid.toNat % 2 ^ 16 = 0 := by
      by_contra h
      exact htail ⟨(shortId_iff mid).mp hshort, h⟩
    have hmid : mid.extractLsb' 16 8 ++ 0#16 = mid := by
      apply BitVec.eq_of_toNat_eq
      simp only [append_toNat, BitVec.extractLsb'_toNat, Nat.shiftRight_eq_div_pow, BitVec.toNat_ofNat]
      omega
    have hmasked := hmask _ (List.mem_singleton_self _)
    rw [List.singleton_append, idSplit_short (by rwa [hmasked]), hmasked, hmid]
  · rw [if_neg hshort] at hmask ⊢
    have hhigh : mid.toNat < 2 ^ 16 := Nat.not_le.mp (mt (shortId_iff mid).mpr hshort)
    have hmid : 0#8 ++ mid.extractLsb' 8 8 ++ mid.extractLsb' 0 8 = mid := by
      apply BitVec.eq_of_toNat_eq
      simp only [append_toNat, BitVec.extractLsb'_toNat, Nat.shiftRight_eq_div_pow, BitVec.toNat_ofNat]
      omega
    rw [List.cons_append, List.cons_append, List.singleton_append, idSplit_extended (hmask 0 (by simp)),
      hmask (mid.extractLsb' 8 8) (by simp), hmask (mid.extractLsb' 0 8) (by simp), hmid]

theorem route7All_payload {cap : Option Nat} {mid : BitVec 24} {l : Bytes} (hne : mid ≠ 0) (hid : canonicalId mid = true)
    (hl : SevenBit l) (hcap : WithinCap cap l.length) :
    route7All cap (idBytes mid ++ l.map mask7) Accum.clear = .ok ⟨3, mid, l⟩ := by
  have hsplit : idSplit mask7 (idBytes mid ++ l.map mask7) = ⟨3, mid, l⟩ := by
    rw [hl.map_mask7, idSplit_idBytes hne hid, hl.map_mask7]
  rw [← hsplit]
  exact route7All_clear_fits (by rwa [hsplit])

theorem route8All_payload {max : Option Nat} {mid : BitVec 24} {l : Bytes} (hne : mid ≠ 0) (hid : canonicalId mid = true)
    (hcap : WithinCap max l.length) :
    route8All max (idBytes mid ++ l) (Accum.clear, false) = (⟨3, mid, l⟩, false) := by
  obtain ⟨-, -, huncapped, hcapped⟩ := routingSplitsTheId (idBytes mid ++ l) (max.getD 0)
  rw [idSplit_idBytes hne hid, List.map_id] at huncapped hcapped
  cases max with
  | none => exact huncapped
  | some m =>
    have hm : l.length ≤ m := hcap m rfl
    exact hcapped.trans (by simp [List.take_of_length_le hm, hm])

/-- Settles O50: the collector holds the bytes received so far, and delivers the payload with the last of them. -/
theorem fc7RoundTrip : Obligations.Fc7RoundTrip := by
  intro mid l g s hne hid hl hunit _ hcap
  have hcollects := fc7_collects g (s.fc7At s.target.idx) (route7All_payload hne hid hl hcap)
  have hfeeds := hcollects.feeds_fragments (by decide)
  rw [← fr7Fragments_eq] at hfeeds
  obtain ⟨t, hrun, hran⟩ := runAll_fc7Feed hunit hfeeds
  exact ⟨_, t, fun _ h => fr7Frag_answers hid l g h, hrun, hran.addressed, hran.others, hran.responses_delivered⟩

/-! ### FC8 collects what FR8 sends -/

section

variable {flag : Bool} {g : BitVec 4} {k : FragKind} {sid : Byte} {c : Bytes}

theorem isFamily_t5 (g : BitVec 4) (k : FragKind) (sid : Byte) (hc : c.length ≤ 13) :
    isFamily (t5 g k sid c) 0x5 = true := by
  rw [isFamily_sysex8_iff, ← tagOf_toNat, ← kindOf_toNat, ← countOf_toNat, countOf_t5 g k sid hc, t5, tagOf_t5Packet,
    kindOf_t5Packet]
  exact ⟨rfl, by cases k <;> decide, by omega, by omega⟩

theorem Fc8.feed_t5 {u : Fc8} (hc : c.length ≤ 13) (haccept : u.ph = .cont ∧ sid = u.act ∨ u.ph = .idle ∧ k.Opens) :
    Fc8.feed flag (t5 g k sid c) u =
      Fc8.collect flag k c { u with ph := .cont, acc := (u.base k).1, act := sid, tr := (u.base k).2 } := by
  have hsid : getByte (t5 g k sid c) 2 = sid := getByte_t5_sid g k sid
  rw [Fc8.feed_accepted (isFamily_t5 g k sid hc) (kindOf_t5Packet ..) (by rwa [hsid]), data_t5 g k sid hc, hsid]

/-- A collector in the middle of a message of stream `sid` that has received the bytes `P`. -/
structure Fc8.Holds (max : Option Nat) (sid : Byte) (P : Bytes) (w : Fc8) : Prop where
  phase : w.ph = .cont
  stream : w.act = sid
  cap : w.max = max
  routed : route8All max P (Accum.clear, false) = (w.acc, w.tr)

theorem fc8_collects {B : Bytes} {x : Accum × Bool} (flag : Bool) (g : BitVec 4) (sid : Byte) {u : Fc8}
    (hidle : u.ph = .idle) (hroute : route8All u.max B (Accum.clear, false) = x) :
    Collects (fun p u => .ok (Fc8.feed flag p u)) (fun k c => t5 g k sid c) (fun p => getByte p 2 == sid) 13 B u
      ⟨.idle, Accum.clear, sid, false, u.max⟩ [.payload x.1.mid x.1.buf (if flag then some x.2 else none)]
      (Fc8.Holds u.max sid) where
  complete hB := by
    rw [Fc8.feed_t5 hB (.inr ⟨hidle, .inl rfl⟩), Fc8.collect_delivered (.inl rfl), ← hroute]
    rfl
  start c rest hjoin hc := by
    refine ⟨_, congrArg Reply.ok ((Fc8.feed_t5 hc (.inr ⟨hidle, .inr rfl⟩)).trans (Fc8.collect_held (by decide))), ?_⟩
    exact ⟨rfl, rfl, rfl, rfl⟩
  cont P c rest w hjoin hc hw := by
    have hadd : route8All w.max c (w.acc, w.tr) = route8All u.max (P ++ c) (Accum.clear, false) := by
      rw [route8All_append, hw.routed, hw.cap]
    refine ⟨_, congrArg Reply.ok ((Fc8.feed_t5 hc (.inl ⟨hw.phase, hw.stream.symm⟩)).trans
      (Fc8.collect_held (by decide))), rfl, rfl, hw.cap, hadd.symm⟩
  end_ P c w hjoin hc hw := by
    have hadd : route8All w.max c (w.acc, w.tr) = x := by
      rw [← hroute, ← hjoin, route8All_append, hw.routed, hw.cap]
    rw [Fc8.feed_t5 hc (.inl ⟨hw.phase, hw.stream.symm⟩), Fc8.collect_delivered (.inr rfl), ← hadd, ← hw.cap]
    rfl
  foreign P q w hw hq := by
    have hsid : getByte q 2 ≠ w.act := by rw [hw.stream]; exact ne_of_beq_false hq
    exact congrArg Reply.ok (Fc8.feed_foreign hw.phase hsid)
  isOwn k c := beq_iff_eq.mpr (getByte_t5_sid g k sid)

end

theorem fc8_collects_payload {mid : BitVec 24} {l : Bytes} {u : Fc8} (flag : Bool) (g : BitVec 4) (sid : Byte)
    (hne : mid ≠ 0) (hid : canonicalId mid = true) (hidle : u.ph = .idle) (hcap : WithinCap u.max l.length) :
    Collects (fun p u => .ok (Fc8.feed flag p u)) (fun k c => t5 g k sid c) (fun p => getByte p 2 == sid) 13
      (idBytes mid ++ l) u ⟨.idle, Accum.clear, sid, false, u.max⟩
      [.payload mid l (if flag then some false else none)] (Fc8.Holds u.max sid) :=
  fc8_collects flag g sid hidle (route8All_payload hne hid hcap)

/-- Settles O51: the collector holds the bytes received so far, and delivers the payload with the last of them. -/
theorem fc8RoundTrip : Obligations.Fc8RoundTrip := by
  intro mid l g sid s hne hid hunit hidle hcap
  have hcollects := fc8_collects_payload s.params.fc8TruncFlag g sid hne hid hidle hcap
  obtain ⟨t, hrun, hran⟩ := runAll_fc8Feed hunit (hcollects.feeds_fragments (by decide))
  exact ⟨_, t, fun _ h => fr8Frag_answers hid l g sid h, hrun, congrArg Fc8.ph hran.addressed, hran.others,
    hran.responses_delivered⟩

/-- The answer of `FR8.FRAG` is its fragments. -/
theorem eq_fr8Fragments {mid : BitVec 24} {l : Bytes} {g : BitVec 4} {sid : Byte} {ps : List Packet}
    (hid : canonicalId mid = true)
    (h : ∀ s0 : State, s0.target.unit = .sx → Answers (.fr8Frag mid l g sid) s0 (.packets ps)) :
    ps = fr8Fragments mid l g sid := by
  have hsx : ({ State.reset with target := ⟨.sx, 0⟩ } : State).target.unit = .sx := rfl
  exact Result.packets.inj ((h _ hsx).unique (fr8Frag_answers hid l g sid hsx))

/-- Settles O52: between START and END the collector ignores a packet of another stream, and what is left is the message. -/
theorem foreignStreamsAreIgnored : Obligations.ForeignStreamsAreIgnored := by
  intro mid l g sid s first last inner ys hne hid hunit hidle hcap hanswers hinner
  have hps : first :: (inner ++ [last]) = fragments (fun k c => t5 g k sid c) 13 (idBytes mid ++ l) :=
    eq_fr8Fragments hid hanswers
  have hlong : 13 < (idBytes mid ++ l).length := by
    by_contra hshort
    rw [fragments_single _ (Nat.not_lt.mp hshort)] at hps
    simp at hps
  obtain ⟨c, ds, e, hsplit, hfragments⟩ := fragments_split (fun k c => t5 g k sid c) (by decide) hlong
  rw [hfragments] at hps
  obtain ⟨rfl, htail⟩ := List.cons.inj hps
  obtain ⟨rfl, hlast⟩ := List.append_inj' htail rfl
  obtain rfl := List.singleton_inj.mp hlast
  have hcollects := fc8_collects_payload s.params.fc8TruncFlag g sid hne hid hidle hcap
  obtain ⟨t, hrun, hran⟩ := runAll_fc8Feed hunit (hcollects.feeds_message hsplit hinner)
  exact ⟨t, hrun, congrArg Fc8.ph hran.addressed, hran.responses_delivered⟩

end Sys2Proof.Machine
end

section
/-! The clock follower (44_jitter_clock_follower.md R290 to R298): what each command answers, one lemma per case, then the
growth of the watermark and the offset, and runs of commands. -/

namespace Sys2Proof.Machine

section

variable {c : Params} {u v : Jr} {s t m : State} {a : Nat} {ts : BitVec 16} {ev : List Event}

/-! ### Times and timestamps (R290, R291) -/

theorem fitsTime_iff {x : Nat} : fitsTime c x = true ↔ Fits c x := by
  unfold fitsTime Fits
  cases c.jrTimeW <;> simp

theorem Fits.of_unbounded (h : c.jrTimeW = none) (x : Nat) : Fits c x := fun _ hw => nomatch h.symm.trans hw

theorem fits_freeTime (c : Params) (n : Nat) : Fits c (freeTime c n) := by
  intro w hw
  rw [freeTime, hw]
  exact Nat.mod_lt _ (Nat.two_pow_pos w)

theorem delta_eq_deltaNat (x y : BitVec 16) : delta x y = deltaNat x y := by
  rw [delta, deltaNat, BitVec.toNat_sub]
  congr 1
  omega

theorem delta_add_left (x y : BitVec 16) : delta (x + y) x = y.toNat := by
  rw [delta, add_sub_cancel_left]

theorem Jr.timeOf_eq (c : Params) (ts : BitVec 16) (u : Jr) :
    Jr.timeOf c ts u = u.ref + c.jrTick * deltaNat ts u.lts := by
  rw [Jr.timeOf, delta_eq_deltaNat]

/-! ### `JR.SYNC` (R292, R295, R296) -/

theorem Jr.sync_unfit (h : ¬ Fits c a) : Jr.sync c a ts u = .refuse .timeOverflow :=
  if_pos (by simpa [← fitsTime_iff] using h)

theorem Jr.sync_first (hinit : u.init = false) (h : Fits c a) :
    Jr.sync c a ts u = .ok ({ u with init := true, ref := a, lts := ts }, []) := by
  simp [Jr.sync, fitsTime_iff.mpr h, hinit]

/-- The values a later sync looks at fit the time width (log 12). -/
def Jr.FollowFits (c : Params) (a : Nat) (ts : BitVec 16) (u : Jr) : Prop :=
  Fits c a ∧ Fits c (Jr.timeOf c ts u) ∧ Fits c (Jr.follow c a ts u).wm ∧ Fits c (Jr.follow c a ts u).jit ∧
    Fits c (Jr.follow c a ts u).sec

theorem Jr.sync_later (hinit : u.init = true) (h : Jr.FollowFits c a ts u) :
    Jr.sync c a ts u = .ok (Jr.follow c a ts u, []) := by
  obtain ⟨harrival, hexpected, hwm, hjit, hsec⟩ := h
  simp [Jr.sync, hinit, fitsTime_iff.mpr harrival, fitsTime_iff.mpr hexpected, fitsTime_iff.mpr hwm,
    fitsTime_iff.mpr hjit, fitsTime_iff.mpr hsec]

theorem Jr.sync_later_unfit (hinit : u.init = true) (h : ¬ Jr.FollowFits c a ts u) :
    Jr.sync c a ts u = .refuse .timeOverflow := by
  by_cases harrival : Fits c a
  · simp only [Jr.FollowFits, harrival, true_and, ← fitsTime_iff] at h
    simpa [Jr.sync, hinit, fitsTime_iff.mpr harrival, and_assoc] using h
  · exact Jr.sync_unfit harrival

theorem Jr.jitterUpdate_eq (c : Params) (x : Int) (u : Jr) : u.jitterUpdate c x = { u with
    jit := jitterAfter u.jit x
    sec := if u.jit < jitterAfter u.jit x then max u.sec (jitterAfter u.jit x * c.jrMarginNum / c.jrMarginDen)
      else u.sec } := by
  unfold Jr.jitterUpdate Jr.secUpdate
  split
  · next hgrew => rw [if_pos hgrew]
  · next hgrew => rw [if_neg hgrew]

/-- R295 in naturals, for the sample of an arrival `t` against an expected time `e`. -/
theorem jitterAfter_sample (jit t e : Nat) : jitterAfter jit ((t : Int) - e) =
    if t < e then (if jit < e - t then jit + (e - t) else jit) else if jit < t - e then t - e else jit := by
  unfold jitterAfter
  by_cases hearly : t < e
  · by_cases hlarge : jit < e - t
    · rw [if_pos (by omega), if_pos hearly, if_pos hlarge]
      omega
    · rw [if_neg (by omega), if_neg (by omega), if_pos hearly, if_neg hlarge]
  · by_cases hlarge : jit < t - e
    · rw [if_neg (by omega), if_pos (by omega), if_neg hearly, if_pos hlarge]
      omega
    · rw [if_neg (by omega), if_neg (by omega), if_neg hearly, if_neg hlarge]

theorem Jr.follow_eq (c : Params) (a : Nat) (ts : BitVec 16) (u : Jr) :
    Jr.follow c a ts u =
      (let e := u.ref + c.jrTick * deltaNat ts u.lts
       let jit := if a < e then (if u.jit < e - a then u.jit + (e - a) else u.jit)
         else if u.jit < a - e then a - e else u.jit
       { init := u.init, lts := ts, ref := if a < e then a else e, wm := max u.wm a, jit := jit,
         sec := if u.jit < jit then max u.sec (jit * c.jrMarginNum / c.jrMarginDen) else u.sec }) := by
  have hearly (e : Nat) : (a : Int) - e < 0 ↔ a < e := by omega
  simp only [Jr.follow, Jr.jitterUpdate_eq, jitterAfter_sample, Jr.timeOf_eq, hearly]

/-! ### `JR.SCHED` (R293) -/

theorem exec_jrSched_unsynced (hunit : s.target.unit = .jr) (hinit : (s.jrAt s.target.idx).init = false) :
    exec (.jrSched a ts) s = .next (s.drawn.finish (some (.time (freeTime s.params s.draws))) []) := by
  simp [exec, execJrSched, hunit, hinit]

/-- The candidate and the result fit the time width (log 12). -/
def Jr.ScheduleFits (c : Params) (ts : BitVec 16) (u : Jr) : Prop :=
  Fits c (Jr.timeOf c ts u) ∧ Fits c ((Jr.schedule c ts u).wm + (Jr.schedule c ts u).sec)

theorem jrSched_becomes (hunit : s.target.unit = .jr) (hinit : (s.jrAt s.target.idx).init = true)
    (h : Jr.ScheduleFits s.params ts (s.jrAt s.target.idx)) :
    JrBecomes (.jrSched a ts) s (Jr.schedule s.params ts (s.jrAt s.target.idx))
      (some (.time ((Jr.schedule s.params ts (s.jrAt s.target.idx)).wm +
        (Jr.schedule s.params ts (s.jrAt s.target.idx)).sec))) := by
  obtain ⟨hcandidate, hresult⟩ := h
  refine ⟨(s.setJr s.target.idx (Jr.schedule s.params ts (s.jrAt s.target.idx))).finish _ [],
    ?_, ?_, fun m hm => ?_, rfl⟩
  · simp [exec, execJrSched, hunit, hinit, fitsTime_iff.mpr hcandidate, fitsTime_iff.mpr hresult]
  · rw [State.finish_jrAt, State.setJr_jrAt_same]
  · rw [State.finish_jrAt, State.setJr_jrAt_other _ _ _ _ hm]

theorem jrSched_refuses (hunit : s.target.unit = .jr) (hinit : (s.jrAt s.target.idx).init = true)
    (h : ¬ Jr.ScheduleFits s.params ts (s.jrAt s.target.idx)) :
    Refuses (.jrSched a ts) s .timeOverflow := by
  show exec (.jrSched a ts) s = .next (s.refuse .timeOverflow)
  simp only [Jr.ScheduleFits, ← fitsTime_iff, ← Bool.and_eq_true] at h
  simp [exec, execJrSched, hunit, hinit, h]

/-! ### The watermark, the jitter and the offset only grow (R292, R293, R295, R296) -/

/-- From `u` to `v` the watermark, the tracked jitter and the security offset have not dropped. -/
structure Jr.Grows (u v : Jr) : Prop where
  wm : u.wm ≤ v.wm
  jit : u.jit ≤ v.jit
  sec : u.sec ≤ v.sec

theorem Jr.Grows.refl (u : Jr) : u.Grows u := ⟨Nat.le_refl _, Nat.le_refl _, Nat.le_refl _⟩

theorem Jr.Grows.trans {w : Jr} (h : u.Grows v) (h' : v.Grows w) : u.Grows w :=
  ⟨Nat.le_trans h.wm h'.wm, Nat.le_trans h.jit h'.jit, Nat.le_trans h.sec h'.sec⟩

theorem Jr.schedule_grows (c : Params) (ts : BitVec 16) (u : Jr) : u.Grows (Jr.schedule c ts u) :=
  ⟨Nat.le_max_left _ _, Nat.le_refl _, Nat.le_refl _⟩

theorem Jr.jitterUpdate_grows (c : Params) (x : Int) (u : Jr) : u.Grows (u.jitterUpdate c x) := by
  rw [Jr.jitterUpdate_eq]
  refine ⟨Nat.le_refl _, le_jitterAfter _ _, ?_⟩
  show u.sec ≤ if _ then _ else _
  split
  · exact Nat.le_max_left _ _
  · exact Nat.le_refl _

theorem Jr.follow_grows (c : Params) (a : Nat) (ts : BitVec 16) (u : Jr) : u.Grows (Jr.follow c a ts u) := by
  have hwritten (ref : Nat) : u.Grows { u with ref := ref, wm := max u.wm a, lts := ts } :=
    ⟨Nat.le_max_left _ _, Nat.le_refl _, Nat.le_refl _⟩
  exact (hwritten _).trans (Jr.jitterUpdate_grows c _ _)

/-- What an accepted sync leaves. -/
theorem Jr.sync_ok_cases (h : Jr.sync c a ts u = .ok (v, ev)) :
    u.init = false ∧ v = { u with init := true, ref := a, lts := ts } ∨ u.init = true ∧ v = Jr.follow c a ts u := by
  cases hinit : u.init with
  | false =>
    by_cases harrival : Fits c a
    · rw [Jr.sync_first hinit harrival] at h
      cases h
      exact .inl ⟨rfl, rfl⟩
    · nomatch (Jr.sync_unfit harrival).symm.trans h
  | true =>
    by_cases hfits : Jr.FollowFits c a ts u
    · rw [Jr.sync_later hinit hfits] at h
      cases h
      exact .inr ⟨rfl, rfl⟩
    · nomatch (Jr.sync_later_unfit hinit hfits).symm.trans h

theorem Jr.sync_grows (h : Jr.sync c a ts u = .ok (v, ev)) : u.Grows v := by
  obtain ⟨-, rfl⟩ | ⟨-, rfl⟩ := Jr.sync_ok_cases h
  · exact ⟨Nat.le_refl _, Nat.le_refl _, Nat.le_refl _⟩
  · exact Jr.follow_grows c a ts u

theorem Jr.sync_init (h : Jr.sync c a ts u = .ok (v, ev)) : v.init = true := by
  obtain ⟨-, rfl⟩ | ⟨hinit, rfl⟩ := Jr.sync_ok_cases h
  · rfl
  · exact (Jr.follow_init c a ts u).trans hinit

theorem State.setJr_grows {k : Nat} (h : (s.jrAt k).Grows v) (n : Nat) : (s.jrAt n).Grows ((s.setJr k v).jrAt n) := by
  by_cases hn : n = k
  · rw [hn, State.setJr_jrAt_same]
    exact h
  · rw [State.setJr_jrAt_other _ _ _ _ hn]
    exact .refl _

/-- Of the effects of a command only two write a clock follower without resetting it. -/
theorem Effect.jrGrows {i : Instr} (hi : i ≠ .jrReset) (he : Effect i s t) (n : Nat) : (s.jrAt n).Grows (t.jrAt n) := by
  cases he with
  | jrSynced a ts u ev _ hsync => exact State.setJr_grows (Jr.sync_grows hsync) n
  | jrScheduled ts _ _ _ v _ => exact State.setJr_grows (Jr.schedule_grows _ ts _) n
  | jrReset _ h => exact absurd h hi
  | answered | faulted | refused | bpFed | bpReset | bpConfigured | fc7Fed | fc7Reset | fc8Fed | fc8Reset
  | fc8Configured | drew => exact .refl _

/-! ### Runs of syncs and schedules (R297) -/

/-- No later `JR.SCHED` returns a time below this one. -/
def Jr.earliest (u : Jr) : Nat := u.wm + u.sec

theorem Jr.Grows.earliest_le (h : u.Grows v) : u.earliest ≤ v.earliest := Nat.add_le_add h.wm h.sec

/-- The machine after a command to a synced follower: it is still synced, and a time that was returned is the earliest one
to come. -/
structure Followed (s m : State) : Prop where
  target : m.target = s.target
  synced : (m.jrAt s.target.idx).init = true
  responses : ∃ r, m.responses = s.responses ++ [r] ∧
    (timesOf [r] = [] ∨ timesOf [r] = [(m.jrAt s.target.idx).earliest])

theorem exec_jrSync_followed (hinit : (s.jrAt s.target.idx).init = true) (h : exec (.jrSync a ts) s = .next m) :
    Followed s m := by
  obtain ⟨u, ev, -, hsync, hnext⟩ | ⟨r, -, -, hnext⟩ | ⟨r, hnext⟩ := onJr_cases (fun c u => Jr.sync c a ts u) s <;>
    cases h.symm.trans hnext
  · refine ⟨rfl, ?_, _, rfl, .inl rfl⟩
    rw [State.finish_jrAt, State.setJr_jrAt_same]
    exact Jr.sync_init hsync
  · exact ⟨rfl, hinit, _, rfl, .inl rfl⟩
  · exact ⟨rfl, hinit, _, rfl, .inl rfl⟩

theorem exec_jrSched_followed (hunit : s.target.unit = .jr) (hinit : (s.jrAt s.target.idx).init = true)
    (h : exec (.jrSched a ts) s = .next m) : Followed s m := by
  by_cases hfits : Jr.ScheduleFits s.params ts (s.jrAt s.target.idx)
  · obtain ⟨t, hexec, haddressed, -, hframe⟩ := jrSched_becomes (a := a) hunit hinit hfits
    cases h.symm.trans hexec
    exact ⟨by rw [hframe], haddressed ▸ hinit, _, by rw [hframe], .inr (by rw [haddressed]; rfl)⟩
  · cases h.symm.trans (jrSched_refuses hunit hinit hfits)
    exact ⟨rfl, hinit, _, rfl, .inl rfl⟩

theorem runAll_cons_next {i : Instr} {rest : List Instr} (h : runAll (i :: rest) s = .next t) :
    ∃ m, exec i s = .next m ∧ runAll rest m = .next t := by
  unfold runAll at h
  split at h
  · next m hexec => exact ⟨m, hexec, h⟩
  · nomatch h
  · nomatch h

theorem timesOf_cons (r : Response) (l : List Response) : timesOf (r :: l) = timesOf [r] ++ timesOf l :=
  List.filterMap_append (l := [r])

/-- The times a run returns are in order, and none is before the earliest one at its start. -/
theorem runAll_times_ordered (cmds : List Instr) (s : State) (hunit : s.target.unit = .jr)
    (hinit : (s.jrAt s.target.idx).init = true)
    (hcmds : ∀ i ∈ cmds, (∃ a ts, i = .jrSync a ts) ∨ ∃ a ts, i = .jrSched a ts) (hrun : runAll cmds s = .next t) :
    ∃ l, t.responses = s.responses ++ l ∧ ((s.jrAt s.target.idx).earliest :: timesOf l).Pairwise (· ≤ ·) := by
  induction cmds generalizing s with
  | nil =>
    cases hrun
    exact ⟨[], (List.append_nil _).symm, List.pairwise_singleton _ _⟩
  | cons i rest ih =>
    obtain ⟨m, hexec, hrest⟩ := runAll_cons_next hrun
    obtain ⟨hi, hcmds⟩ := List.forall_mem_cons.mp hcmds
    have hfollowed : Followed s m ∧ i ≠ .jrReset := by
      obtain ⟨a, ts, rfl⟩ | ⟨a, ts, rfl⟩ := hi
      · exact ⟨exec_jrSync_followed hinit hexec, nofun⟩
      · exact ⟨exec_jrSched_followed hunit hinit hexec, nofun⟩
    obtain ⟨⟨htarget, hsynced, r, hresponse, htimes⟩, hreset⟩ := hfollowed
    have hgrows := ((exec_effect hexec).jrGrows hreset s.target.idx).earliest_le
    obtain ⟨l, hresponses, hordered⟩ := ih m (htarget ▸ hunit) (htarget ▸ hsynced) hcmds hrest
    rw [htarget] at hordered
    have hlonger := hordered.cons_cons_of_trans hgrows
    refine ⟨r :: l, by rw [hresponses, hresponse, List.append_assoc]; rfl, ?_⟩
    rw [timesOf_cons]
    obtain hnone | hone := htimes
    · rw [hnone]
      exact hlonger.sublist ((List.sublist_cons_self _ _).cons_cons _)
    · rw [hone]
      exact hlonger

/-! ### A regular clock (R298) -/

theorem runAll_append_singleton {i : Instr} {cmds : List Instr} (hrun : runAll cmds s = .next m)
    (hexec : exec i m = .next t) : runAll (cmds ++ [i]) s = .next t := by
  induction cmds generalizing s with
  | nil =>
    cases hrun
    exact runAll_cons hexec []
  | cons j rest ih =>
    obtain ⟨m', hfirst, hrest⟩ := runAll_cons_next hrun
    exact (runAll_cons hfirst _).trans (ih hrest)

/-- A follower whose last sync, at `a` with the timestamp `ts`, was on time, as was every sync before. -/
structure Jr.OnTime (c : Params) (a : Nat) (ts : BitVec 16) (u : Jr) : Prop where
  init : u.init = true
  lts : u.lts = ts
  ref : u.ref = a
  jit : u.jit = 0
  sec : u.sec = c.jrInitSec

theorem Jr.jitterUpdate_zero (c : Params) (u : Jr) : u.jitterUpdate c 0 = u := by
  simp [Jr.jitterUpdate_eq, jitterAfter]

/-- A sync that arrives when it is expected is the sample 0. -/
theorem Jr.follow_expected (c : Params) (ts : BitVec 16) (u : Jr) : Jr.follow c (Jr.timeOf c ts u) ts u =
    { u with ref := Jr.timeOf c ts u, wm := max u.wm (Jr.timeOf c ts u), lts := ts } := by
  simp only [Jr.follow, Int.sub_self, Jr.jitterUpdate_zero, ite_self]

theorem Jr.OnTime.follow {step : BitVec 16} (h : Jr.OnTime c a ts u) :
    Jr.OnTime c (a + c.jrTick * step.toNat) (ts + step) (Jr.follow c (a + c.jrTick * step.toNat) (ts + step) u) := by
  obtain ⟨hinit, hlts, href, hjit, hsec⟩ := h
  have hexpected : Jr.timeOf c (ts + step) u = a + c.jrTick * step.toNat := by
    rw [Jr.timeOf, hlts, href, delta_add_left]
  rw [← hexpected, Jr.follow_expected]
  exact ⟨hinit, rfl, rfl, hjit, hsec⟩

theorem Jr.sync_later_unbounded (hwidth : c.jrTimeW = none) (hinit : u.init = true) :
    Jr.sync c a ts u = .ok (Jr.follow c a ts u, []) :=
  Jr.sync_later hinit ⟨.of_unbounded hwidth _, .of_unbounded hwidth _, .of_unbounded hwidth _, .of_unbounded hwidth _,
    .of_unbounded hwidth _⟩

/-- The machine after a run of syncs on time. -/
structure RanOnTime (s : State) (a : Nat) (ts : BitVec 16) (t : State) : Prop where
  params : t.params = s.params
  target : t.target = s.target
  onTime : Jr.OnTime s.params a ts (t.jrAt s.target.idx)

theorem exec_jrSync_ranOnTime (hunit : s.target.unit = .jr)
    (hsync : Jr.sync s.params a ts (s.jrAt s.target.idx) = .ok (u, [])) (h : Jr.OnTime s.params a ts u) :
    ∃ t, exec (.jrSync a ts) s = .next t ∧ RanOnTime s a ts t := by
  have hbecomes : JrBecomes (.jrSync a ts) s u none := jrBecomes_of (f := fun c u => Jr.sync c a ts u) rfl hunit hsync
  obtain ⟨t, hexec, hsame, -, hframe⟩ := hbecomes
  exact ⟨t, hexec, by rw [hframe], by rw [hframe], hsame ▸ h⟩

theorem RanOnTime.next {step : BitVec 16} (hunit : s.target.unit = .jr) (hwidth : s.params.jrTimeW = none)
    (h : RanOnTime s a ts m) : ∃ t, exec (.jrSync (a + s.params.jrTick * step.toNat) (ts + step)) m = .next t ∧
      RanOnTime s (a + s.params.jrTick * step.toNat) (ts + step) t := by
  obtain ⟨hparams, htarget, hontime⟩ := h
  rw [← hparams] at hontime hwidth ⊢
  rw [← htarget] at hontime hunit
  obtain ⟨t, hexec, hparams', htarget', hontime'⟩ :=
    exec_jrSync_ranOnTime hunit (Jr.sync_later_unbounded hwidth hontime.init) hontime.follow
  rw [hparams, htarget] at hontime'
  exact ⟨t, hexec, hparams'.trans hparams, htarget'.trans htarget, hparams ▸ hontime'⟩

/-- The `k`-th sync of a regular clock whose timestamps are `step` apart. -/
def regularSync (c : Params) (a : Nat) (ts step : BitVec 16) (k : Nat) : Instr :=
  .jrSync (a + k * (c.jrTick * step.toNat)) (ts + BitVec.ofNat 16 k * step)

theorem runAll_regularSync (hunit : s.target.unit = .jr) (hwidth : s.params.jrTimeW = none)
    (hstart : s.jrAt s.target.idx = Jr.powerOn s.params) (a : Nat) (ts step : BitVec 16) (n : Nat) :
    ∃ t, runAll ((List.range (n + 1)).map (regularSync s.params a ts step)) s = .next t ∧
      RanOnTime s (a + n * (s.params.jrTick * step.toNat)) (ts + BitVec.ofNat 16 n * step) t := by
  induction n with
  | zero =>
    have hfirst := Jr.sync_first (ts := ts) (congrArg Jr.init hstart) (.of_unbounded hwidth a)
    obtain ⟨t, hexec, hran⟩ := exec_jrSync_ranOnTime hunit hfirst
      ⟨rfl, rfl, rfl, congrArg Jr.jit hstart, congrArg Jr.sec hstart⟩
    refine ⟨t, ?_, by simpa using hran⟩
    simpa [regularSync, runAll] using runAll_cons hexec []
  | succ n ih =>
    obtain ⟨m, hrun, hran⟩ := ih
    have harrival : a + (n + 1) * (s.params.jrTick * step.toNat) =
        a + n * (s.params.jrTick * step.toNat) + s.params.jrTick * step.toNat := by ring
    have htimestamp : ts + BitVec.ofNat 16 (n + 1) * step = ts + BitVec.ofNat 16 n * step + step := by
      rw [BitVec.ofNat_add, BitVec.add_mul, BitVec.one_mul, BitVec.add_assoc]
    rw [List.range_succ, List.map_append, List.map_singleton, regularSync, harrival, htimestamp]
    obtain ⟨t, hexec, hran'⟩ := hran.next hunit hwidth
    exact ⟨t, runAll_append_singleton hrun hexec, hran'⟩

end

/-! ### The obligations -/

/-- Settles O53: the first sync looks at the arrival time and writes the reference and the timestamp. -/
theorem jrFirstSync : Obligations.JrFirstSync := by
  intro a ts s hunit hinit
  exact ⟨fun h => jrBecomes_of (f := fun c u => Jr.sync c a ts u) rfl hunit (Jr.sync_first hinit h),
    fun h => jrRefuses_of (f := fun c u => Jr.sync c a ts u) rfl hunit (Jr.sync_unfit h)⟩

/-- Settles O54: a later sync whose values fit leaves `Jr.follow`, and one whose values do not is refused. -/
theorem jrLaterSync : Obligations.JrLaterSync := by
  intro a ts s hunit hinit
  have haccepted := fun h => jrBecomes_of (i := .jrSync a ts) (f := fun c u => Jr.sync c a ts u) rfl hunit
    (Jr.sync_later hinit h)
  have hrefused := fun h => jrRefuses_of (i := .jrSync a ts) (f := fun c u => Jr.sync c a ts u) rfl hunit
    (Jr.sync_later_unfit hinit h)
  rw [Jr.FollowFits, Jr.timeOf_eq, Jr.follow_eq, hinit] at haccepted hrefused
  exact ⟨haccepted, hrefused⟩

/-- Settles O55: before a sync a free value is drawn; after it the answer turns on what fits. -/
theorem jrSchedule : Obligations.JrSchedule := by
  intro a ts s hunit
  have haccepted := fun hinit => jrSched_becomes (s := s) (a := a) (ts := ts) hunit hinit
  have hrefused := fun hinit => jrSched_refuses (s := s) (a := a) (ts := ts) hunit hinit
  rw [Jr.ScheduleFits, Jr.schedule, Jr.timeOf_eq] at haccepted hrefused
  exact ⟨fun hinit hcandidate hresult => haccepted hinit ⟨hcandidate, hresult⟩, hrefused,
    fun hinit => ⟨_, fits_freeTime _ _, exec_jrSched_unsynced hunit hinit⟩⟩

/-- Settles O56: each result is the earliest time that can follow it. -/
theorem scheduleIsNonDecreasing : Obligations.ScheduleIsNonDecreasing := by
  intro cmds s t hunit hinit hcmds hrun
  obtain ⟨l, hresponses, hordered⟩ := runAll_times_ordered cmds s hunit hinit hcmds hrun
  rw [hresponses, List.drop_left]
  exact hordered.of_cons

/-- Settles O57: every sync after the first is on time. -/
theorem regularClockHasNoJitter : Obligations.RegularClockHasNoJitter := by
  intro a ts step n s hunit hwidth hstart
  obtain ⟨t, hrun, -, -, hinit, -, href, hjit, hsec⟩ := runAll_regularSync hunit hwidth hstart a ts step n
  exact ⟨t, hrun, hinit, hjit, hsec, href⟩

/-- Settles O58: every next state is an effect of its command, and only that of `JR.RESET` lowers anything. -/
theorem watermarkAndOffsetOnlyGrow : Obligations.WatermarkAndOffsetOnlyGrow := by
  intro i s t hi hexec n
  obtain ⟨hwm, hjit, hsec⟩ := (exec_effect hexec).jrGrows hi n
  exact ⟨hwm, hjit, hsec⟩

end Sys2Proof.Machine
end

section
/-! The outcome every command reports (60_exceptions.md R320, R322 to R326, R337): one case split over the instructions
says what an addressed command can report, and the statements read their part off it. -/

namespace Sys2Proof.Machine

/-! ### What a step reports -/

/-- The step answers a next state, with one more response than `s`, whose report is `p`. -/
def Reports (s : State) (x : Step) (p : Report) : Prop :=
  ∃ t v ev, x = .next t ∧ t.responses = s.responses ++ [⟨p, v, ev⟩]

/-- What a command's pseudocode reports when it ends in this reply. -/
def Reply.report {α : Type} : Reply α → Report
  | .ok _ => .ok
  | .fault r => .fault r
  | .refuse r => .refused r

section

variable {i : Instr} {s : State} {x : Step} {p q : Report}

theorem Reports.unique (hp : Reports s x p) (hq : Reports s x q) : p = q := by
  obtain ⟨t, v, ev, rfl, ht⟩ := hp
  obtain ⟨_, w, ew, ⟨⟩, ht'⟩ := hq
  have hresponse := List.append_cancel_left (ht.symm.trans ht')
  simp only [List.cons.injEq, Response.mk.injEq] at hresponse
  exact hresponse.1.1

theorem Reports.raise (s : State) (r : FaultReason) : Reports s (.next (s.raise r)) (.fault r) :=
  ⟨_, _, _, rfl, rfl⟩

theorem Reports.refuse (s : State) (r : RefuseReason) : Reports s (.next (s.refuse r)) (.refused r) :=
  ⟨_, _, _, rfl, rfl⟩

theorem Reports.finish {t : State} (h : t.responses = s.responses) (v : Option Result) (ev : List Event) :
    Reports s (.next (t.finish v ev)) .ok :=
  ⟨_, v, ev, rfl, by rw [State.finish_responses, h]⟩

theorem Faults.reports {r : FaultReason} (h : Faults i s r) : Reports s (exec i s) (.fault r) :=
  h ▸ Reports.raise s r

theorem Refuses.reports {r : RefuseReason} (h : Refuses i s r) : Reports s (exec i s) (.refused r) :=
  h ▸ Reports.refuse s r

/-- A command that reports a fault has done nothing else (R322). -/
theorem Reports.faults {r : FaultReason} (h : Reports s (exec i s) (.fault r)) : Faults i s r := by
  obtain ⟨t, v, ev, hexec, ht⟩ := h
  obtain ⟨response, hresponse, -, houtcome⟩ := oneOutcomePerCommand i s t hexec
  obtain rfl : response = ⟨.fault r, v, ev⟩ := by simpa using hresponse.symm.trans ht
  obtain ⟨rfl, rfl, hframe⟩ := houtcome
  exact hexec.trans (congrArg _ hframe)

/-! ### The shared operations -/

theorem Reports.answer {u : UnitKind} (hu : s.target.unit = u) (r : Reply Result) :
    Reports s (answer u r s) r.report := by
  cases r with
  | ok v => rw [answer_ok hu]; exact .finish rfl _ _
  | fault f => rw [answer_fault hu]; exact .raise s f
  | refuse f => rw [answer_refuse hu]; exact .refuse s f

theorem Reports.commit {σ : Type} {put : σ → State} (hput : ∀ u, (put u).responses = s.responses)
    (r : Reply (σ × List Event)) : Reports s (commit put s r) r.report := by
  cases r with
  | ok x => exact .finish (hput x.1) _ _
  | fault f => exact .raise s f
  | refuse f => exact .refuse s f

/-- A command at its own unit reports what its pseudocode does. -/
theorem Reports.atUnit {u : UnitKind} (hu : s.target.unit = u) (h : Reports s x p) : Reports s (atUnit u s x) p := by
  rwa [atUnit_of_eq hu]

end

/-! ### The catalogues (R323, R325) -/

/-- What an addressed command may report under the parameters `c`, when the fault catalogue's entry for it is `o`: that
fault, or, without an entry, OK or a refusal of R325, an overflow only under a finite capacity or time width. -/
inductive InCatalogue (c : Params) : Option FaultReason → Report → Prop where
  | ok : InCatalogue c none .ok
  | fault (r : FaultReason) : InCatalogue c (some r) (.fault r)
  | noSuchFamily : InCatalogue c none (.refused .noSuchFamily)
  | modeChangeInSysex : InCatalogue c none (.refused .modeChangeInSysex)
  | bufOverflow (h : c.bpBufCap ≠ none ∨ c.fc7BufCap ≠ none) : InCatalogue c none (.refused .bufOverflow)
  | timeOverflow (h : c.jrTimeW ≠ none) : InCatalogue c none (.refused .timeOverflow)

section

variable {c : Params}

theorem InCatalogue.eq_some {o : Option FaultReason} {r : FaultReason} (h : InCatalogue c o (.fault r)) :
    o = some r := by
  cases h; rfl

theorem InCatalogue.eq_fault {p : Report} {r : FaultReason} (h : InCatalogue c (some r) p) : p = .fault r := by
  cases h; rfl

theorem InCatalogue.cap_of_bufOverflow {o : Option FaultReason} (h : InCatalogue c o (.refused .bufOverflow)) :
    c.bpBufCap ≠ none ∨ c.fc7BufCap ≠ none := by
  cases h with
  | bufOverflow hcap => exact hcap

theorem InCatalogue.width_of_timeOverflow {o : Option FaultReason} (h : InCatalogue c o (.refused .timeOverflow)) :
    c.jrTimeW ≠ none := by
  cases h with
  | timeOverflow hwidth => exact hwidth

/-- A command may end in this reply. -/
def ReplyInCatalogue {α : Type} (c : Params) (o : Option FaultReason) (r : Reply α) : Prop := InCatalogue c o r.report

theorem ReplyInCatalogue.ok {α : Type} (v : α) : ReplyInCatalogue c none (.ok v) := InCatalogue.ok

/-- A command that checks its operands first, as the fault catalogue does. -/
theorem ReplyInCatalogue.guard {α : Type} {P Q : Prop} [Decidable P] [Decidable Q] (h : P ↔ Q) (r : FaultReason)
    (v : α) : ReplyInCatalogue c (if Q then some r else none) (if P then .fault r else .ok v) := by
  by_cases hQ : Q
  · rw [if_pos hQ, if_pos (h.mpr hQ)]; exact InCatalogue.fault r
  · rw [if_neg hQ, if_neg (mt h.mp hQ)]; exact .ok v

/-- The same with the check for the accepted operands. -/
theorem ReplyInCatalogue.accept {α : Type} {P : Prop} [Decidable P] (r : FaultReason) (v : α) :
    ReplyInCatalogue c (if P then none else some r) (if P then .ok v else .fault r) := by
  split
  · exact .ok v
  · exact InCatalogue.fault r

/-- A reply that is no fault is in the catalogue when each refusal it can be is. -/
theorem ReplyInCatalogue.of_noFault {α : Type} {r : Reply α} (hfault : NoFault r)
    (hrefuse : ∀ e, r = .refuse e → InCatalogue c none (.refused e)) : ReplyInCatalogue c none r := by
  cases r with
  | ok v => exact .ok v
  | fault f => exact absurd rfl (hfault f)
  | refuse e => exact hrefuse e rfl

end

/-! ### Refusals of the units with state (R325) -/

section

variable {cap : Option Nat} {r : RefuseReason}

theorem overCap_ne_none {n : Nat} (h : overCap cap n = true) : cap ≠ none := by
  rintro rfl
  exact nomatch h

theorem route7_refusal {b : BitVec 7} {a : Accum} (h : route7 cap b a = .refuse r) :
    r = .bufOverflow ∧ cap ≠ none := by
  rcases route7_cases cap b a with ⟨_, hroute⟩ | ⟨_, _, hroute⟩ | ⟨_, hfull, hroute⟩
  · cases hroute.symm.trans h
  · cases hroute.symm.trans h
  · cases hroute.symm.trans h
    exact ⟨rfl, overCap_ne_none hfull⟩

theorem route7All_refusal {l : Bytes} {a : Accum} (h : route7All cap l a = .refuse r) :
    r = .bufOverflow ∧ cap ≠ none := by
  induction l generalizing a with
  | nil => cases h
  | cons b rest ih =>
    unfold route7All at h
    split at h
    · exact ih h
    · cases h
    · next hroute => cases h; exact route7_refusal hroute

theorem Bp.sxAppend_refusal {u : Bp} {b : Byte} (h : u.sxAppend cap b = .refuse r) :
    r = .bufOverflow ∧ cap ≠ none := by
  unfold Bp.sxAppend at h
  split at h
  · split at h <;> cases h
  · split at h
    · cases h
    · cases h
    · next hroute => cases h; exact route7_refusal hroute

theorem Bp.feed_refusal {b : Byte} {u : Bp} (h : Bp.feed cap b u = .refuse r) : r = .bufOverflow ∧ cap ≠ none := by
  unfold Bp.feed at h
  split at h
  · cases h
  split at h
  · split at h
    · exact Bp.sxAppend_refusal h
    · split at h <;> cases h
  · cases h

theorem Bp.configure_refusal {g : BitVec 4} {e m : BitVec 1} {u : Bp} (h : u.configure g e m = .refuse r) :
    r = .modeChangeInSysex := by
  unfold Bp.configure at h
  split at h <;> cases h
  rfl

theorem Fc7.collect_refusal {k : FragKind} {l : Bytes} {u : Fc7} (h : Fc7.collect cap k l u = .refuse r) :
    r = .bufOverflow ∧ cap ≠ none := by
  unfold Fc7.collect at h
  split at h
  · split at h <;> cases h
  · cases h
  · next hroute => cases h; exact route7All_refusal hroute

theorem Fc7.feed_refusal {p : Packet} {u : Fc7} (h : Fc7.feed cap p u = .refuse r) :
    r = .bufOverflow ∧ cap ≠ none := by
  unfold Fc7.feed at h
  split at h
  · split at h
    · cases h
    · simp only at h
      split at h
      · exact Fc7.collect_refusal h
      · split at h
        · cases h
        · exact Fc7.collect_refusal h
  · cases h

end

theorem Jr.sync_refusal {c : Params} {a : Nat} {ts : BitVec 16} {u : Jr} {r : RefuseReason}
    (h : Jr.sync c a ts u = .refuse r) : r = .timeOverflow ∧ c.jrTimeW ≠ none := by
  refine ⟨?_, fun hwidth => ?_⟩
  · unfold Jr.sync at h
    split at h
    · cases h; rfl
    split at h
    · cases h
    simp only at h
    split at h <;> cases h
    rfl
  · cases hinit : u.init with
    | false => cases (Jr.sync_first hinit (.of_unbounded hwidth a)).symm.trans h
    | true => cases (Jr.sync_later_unbounded hwidth hinit).symm.trans h

/-! ### Every instruction (R320) -/

/-- The step reports what the catalogues allow a command with the fault entry `o`. -/
def Catalogued (s : State) (o : Option FaultReason) (x : Step) : Prop :=
  ∃ p, Reports s x p ∧ InCatalogue s.params o p

section

variable {s : State}

theorem Catalogued.answer {u : UnitKind} {r : Reply Result} {o : Option FaultReason} (hu : s.target.unit = u)
    (h : ReplyInCatalogue s.params o r) : Catalogued s o (answer u r s) := ⟨_, .answer hu r, h⟩

theorem Catalogued.onBp {f : Params → Bp → Reply (Bp × List Event)} (hu : s.target.unit = .bp)
    (h : ∀ c u, ReplyInCatalogue c none (f c u)) : Catalogued s none (onBp f s) :=
  ⟨_, .atUnit hu (.commit (put := s.setBp _) (fun _ => rfl) _), h _ _⟩

theorem Catalogued.onFc7 {f : Params → Fc7 → Reply (Fc7 × List Event)} (hu : s.target.unit = .fc7)
    (h : ∀ c u, ReplyInCatalogue c none (f c u)) : Catalogued s none (onFc7 f s) :=
  ⟨_, .atUnit hu (.commit (put := s.setFc7 _) (fun _ => rfl) _), h _ _⟩

theorem Catalogued.onFc8 {f : Params → Fc8 → Reply (Fc8 × List Event)} (hu : s.target.unit = .fc8)
    (h : ∀ c u, ReplyInCatalogue c none (f c u)) : Catalogued s none (onFc8 f s) :=
  ⟨_, .atUnit hu (.commit (put := s.setFc8 _) (fun _ => rfl) _), h _ _⟩

theorem Catalogued.onJr {f : Params → Jr → Reply (Jr × List Event)} (hu : s.target.unit = .jr)
    (h : ∀ c u, ReplyInCatalogue c none (f c u)) : Catalogued s none (onJr f s) :=
  ⟨_, .atUnit hu (.commit (put := s.setJr _) (fun _ => rfl) _), h _ _⟩

theorem Catalogued.bpFeed (hu : s.target.unit = .bp) (b : Byte) :
    Catalogued s none (Machine.onBp (fun c u => Bp.feed c.bpBufCap b u) s) := by
  refine .onBp hu fun c u => .of_noFault (bp_feed_no_fault _ _ _) fun e hrefused => ?_
  obtain ⟨rfl, hcap⟩ := Bp.feed_refusal hrefused
  exact .bufOverflow (.inl hcap)

theorem Catalogued.fc7Feed (hu : s.target.unit = .fc7) (p : Packet) :
    Catalogued s none (Machine.onFc7 (fun c u => Fc7.feed c.fc7BufCap p u) s) := by
  refine .onFc7 hu fun c u => .of_noFault (fc7_feed_no_fault _ _ _) fun e hrefused => ?_
  obtain ⟨rfl, hcap⟩ := Fc7.feed_refusal hrefused
  exact .bufOverflow (.inr hcap)

theorem Catalogued.bpCfg (hu : s.target.unit = .bp) (g : BitVec 4) (e m : BitVec 1) :
    Catalogued s none (exec (.bpCfg g e m) s) := by
  refine .onBp hu fun _ u => .of_noFault (bp_configure_no_fault g e m u) fun r hrefused => ?_
  obtain rfl := Bp.configure_refusal hrefused
  exact .modeChangeInSysex

theorem Catalogued.jrSync (hu : s.target.unit = .jr) (a : Nat) (ts : BitVec 16) :
    Catalogued s none (exec (.jrSync a ts) s) := by
  refine .onJr hu fun c u => .of_noFault (jr_sync_no_fault c a ts u) fun r hrefused => ?_
  obtain ⟨rfl, hwidth⟩ := Jr.sync_refusal hrefused
  exact .timeOverflow hwidth

theorem Catalogued.jrSched (hu : s.target.unit = .jr) (a : Nat) (ts : BitVec 16) :
    Catalogued s none (exec (.jrSched a ts) s) := by
  cases hinit : (s.jrAt s.target.idx).init with
  | false => exact ⟨_, exec_jrSched_unsynced hu hinit ▸ .finish rfl _ _, .ok⟩
  | true =>
    by_cases hfits : Jr.ScheduleFits s.params ts (s.jrAt s.target.idx)
    · obtain ⟨t, hexec, -, -, hframe⟩ := jrSched_becomes (a := a) hu hinit hfits
      exact ⟨_, ⟨t, _, _, hexec, congrArg State.responses hframe⟩, .ok⟩
    · have hwidth : s.params.jrTimeW ≠ none := fun h => hfits ⟨.of_unbounded h _, .of_unbounded h _⟩
      exact ⟨_, (jrSched_refuses hu hinit hfits).reports, .timeOverflow hwidth⟩

end

/-! The operand checks of the packet commands, as the fault catalogue states them (R132, R137, R142). -/

theorem tagOf_eq_zero_iff_lt (p : Packet) : tagOf p = 0 ↔ p.w0.toNat < 2 ^ 28 := by
  rw [tagOf_eq_zero_iff]
  omega

theorem badWordCount_iff : ∀ n : BitVec 3, n.toNat < 1 ∨ 4 < n.toNat ↔ n = 0 ∨ n = 5 ∨ n = 6 ∨ n = 7 := by decide

theorem pastField14_iff : ∀ i : BitVec 4, 14 < i.toNat ↔ i = 15 := by decide

theorem pastField28_iff : ∀ i : BitVec 4, 12 < i.toNat ↔ i = 13 ∨ i = 14 ∨ i = 15 := by decide

/-- Every command at its own unit reports the catalogue's fault, or, without one, OK or a refusal of R325. -/
theorem exec_catalogued {i : Instr} {s : State} (hu : s.target.unit = unitOf i) :
    Catalogued s (faultOf i) (exec i s) := by
  cases i
  case pkMake n a0 a1 a2 a3 => exact .answer hu (.guard (badWordCount_iff n) _ _)
  case pkGroup p => exact .answer hu (.guard (tagOf_eq_zero_iff_lt p) _ _)
  case pkGet14 p i | pkSet14 p i v => exact .answer hu (.guard (pastField14_iff i) _ _)
  case pkGet28 p i | pkSet28 p i v => exact .answer hu (.guard (pastField28_iff i) _ _)
  case fr7Frag mid l g | fr8Frag mid l g sid => exact .answer hu (.accept _ _)
  case pkIsfam p f =>
    refine .answer hu ?_
    split
    · exact .ok _
    · exact InCatalogue.noSuchFamily
  case bpFeed | byteData | byteCv80 | byteCvC0 | byteCvE0 | byteSxStart | byteScF1 | byteScF2 | byteScF3 | byteUndefF4 |
      byteUndefF5 | byteTune | byteSxEnd | byteRtF8 | byteRtResF9 | byteRtFA | byteRtFB | byteRtFC | byteRtResFD |
      byteRtFE | byteRtFF => exact .bpFeed hu _
  case bpReset => exact .onBp hu fun _ _ => .ok _
  case bpCfg g e m => exact .bpCfg hu g e m
  case fc7Feed | t3Complete | t3Start | t3Cont | t3End => exact .fc7Feed hu _
  case fc7Reset => exact .onFc7 hu fun _ _ => .ok _
  case fc8Feed | fc8Reset | fc8Cfg | t5Complete | t5Start | t5Cont | t5End => exact .onFc8 hu fun _ _ => .ok _
  case jrSync a ts => exact .jrSync hu a ts
  case jrSched a ts => exact .jrSched hu a ts
  case jrReset => exact .onJr hu fun _ _ => .ok _
  -- every other command answers whatever its operands are
  all_goals exact .answer hu (.ok _)

/-- Every command reports something: `WRONG_UNIT`, or what the catalogues allow it (R320, R326). -/
theorem exec_reports_cases (i : Instr) (s : State) :
    (s.target.unit ≠ unitOf i ∧ Reports s (exec i s) (.refused .wrongUnit)) ∨
      (s.target.unit = unitOf i ∧ Catalogued s (faultOf i) (exec i s)) := by
  by_cases hu : s.target.unit = unitOf i
  · exact .inr ⟨hu, exec_catalogued hu⟩
  · exact .inl ⟨hu, (refuses_wrongUnit hu).reports⟩

/-! ### The obligations -/

/-- Settles O12: a command that reports something answers a next state. -/
theorem everyInstructionCompletes : Obligations.EveryInstructionCompletes := by
  intro i s
  rcases exec_reports_cases i s with ⟨-, t, _, _, hexec, _⟩ | ⟨-, p, ⟨t, _, _, hexec, _⟩, _⟩
  · exact ⟨t, hexec⟩
  · exact ⟨t, hexec⟩

/-- Settles O15: a command reports one outcome, and at its own unit the fault it can report is the catalogue's. -/
theorem faultsAreTheCatalogue : Obligations.FaultsAreTheCatalogue := by
  intro i s r
  constructor
  · intro hfaults
    rcases exec_reports_cases i s with ⟨-, hreports⟩ | ⟨hu, p, hreports, hcatalogue⟩
    · cases hreports.unique hfaults.reports
    · obtain rfl := hreports.unique hfaults.reports
      exact ⟨hu, hcatalogue.eq_some⟩
  · rintro ⟨hu, hfault⟩
    obtain ⟨p, hreports, hcatalogue⟩ := exec_catalogued hu
    rw [hfault] at hcatalogue
    obtain rfl := hcatalogue.eq_fault
    exact hreports.faults

/-- Settles O17: an overflow is in the catalogue only under a finite capacity or time width. -/
theorem defaultsNeverOverflow : Obligations.DefaultsNeverOverflow := by
  intro i s hbp hfc7 hwidth
  rcases exec_reports_cases i s with ⟨-, hreports⟩ | ⟨-, p, hreports, hcatalogue⟩
  · exact ⟨fun h => (nomatch hreports.unique h.reports), fun h => nomatch hreports.unique h.reports⟩
  · refine ⟨fun h => ?_, fun h => ?_⟩
    · obtain rfl := hreports.unique h.reports
      exact hcatalogue.cap_of_bufOverflow.elim (· hbp) (· hfc7)
    · obtain rfl := hreports.unique h.reports
      exact hcatalogue.width_of_timeOverflow hwidth

theorem step_faulted {s : State} {r : FaultReason} (h : s.faultRec = some r) : step s = .fault (.quiescent r) := by
  rw [step, fetch_halted h]

theorem step_idle {s : State} (hquiet : s.faultRec = none) (hinbox : s.inbox = []) : step s = .next s := by
  rw [step, fetch_idle hquiet hinbox]

theorem core_run_of_step_fault {s : State} {f : Fault} (h : step s = .fault f) (k : Nat) :
    Sys2Proof.core.run (k + 1) s = .fault f := by
  have hcore : Sys2Proof.core.step s = .fault f := h
  simp only [Host.Core.run, hcore]

/-- Settles O7: `fetch` answers halted or idle, and a run ends at a step that stops. -/
theorem faultedOrIdleStep : Obligations.FaultedOrIdleStep :=
  ⟨fun _ _ k hfault => ⟨step_faulted hfault, core_run_of_step_fault (step_faulted hfault) k⟩,
    fun _ hquiet hinbox => step_idle hquiet hinbox⟩

end Sys2Proof.Machine
end

section
/-! Reset is power-on (70_reset_and_hazards.md R340): the banks of `State.reset` are empty, so an instance of any number
reads its unit's power-on value, whose fields are the ones R340 lists. -/

namespace Sys2Proof.Machine

/-- Settles O1: an instance of any number reads the power-on value of its unit, and reset sets neither mark. -/
theorem resetIsPowerOn : Obligations.ResetIsPowerOn :=
  ⟨State.reset_bpAt, State.reset_fc7At, State.reset_fc8At, State.reset_jrAt, rfl, rfl⟩

end Sys2Proof.Machine
end
